-- ==== Sys2Proof/Word.lean ====
section
/-! DEFINITION. The words the KV416 deals in: bytes, host numbers, and a value kept once for each of the four hosts. -/

namespace Sys2Proof

/-- One byte of a descriptor, a record, an image or pool memory. -/
abbrev Byte := BitVec 8

/-- A host, or its port: 0 to 3 (00_scope.md, Conventions). -/
abbrev HostId := Fin 4

/-- The four hosts in ascending order. -/
def hosts : List HostId := [0, 1, 2, 3]

/-- A value kept for each of the four hosts. -/
structure PerHost (α : Type) where
  h0 : α
  h1 : α
  h2 : α
  h3 : α
  deriving DecidableEq, Repr

end Sys2Proof
end

