-- ==== Sys2Proof/Syntax.lean ====
section
/-! DEFINITION. The commands of the KV416: one constructor of `Instr` for each row of spec/opcode_table.json, with its operands. -/

namespace Sys2Proof

/-- A control write of a port (R167): its offset in the 4 KiB control aperture and, for each byte of its length, the
byte written and its mask flag. -/
structure ControlWrite where
  offset : Nat
  bytes : List (Byte × Bool)
  deriving DecidableEq, Repr

/-- The kind of a data request; a write carries one byte of data and one mask flag for each byte of its length (R107). -/
inductive Access where
  | read
  | write (bytes : List (Byte × Bool))
  deriving DecidableEq, Repr

/-- A data request in the link's request format (R107): link tag, 128-byte block number, first and last word. -/
structure DataRequest where
  tag : Fin 32
  block : BitVec 29
  firstWord : Fin 32
  lastWord : Fin 32
  access : Access
  deriving DecidableEq, Repr

/-- The bit errors of one 64-byte pool block as ECC sees them (06, section 6.4): none, one that the code corrects,
or one that is detected and cannot be corrected. -/
inductive BlockError where
  | none
  | single
  | uncorrectable
  deriving DecidableEq, Repr, Inhabited

/-- The commands of the block, in the order of spec/opcode_table.json.
The twenty takings carry no operand: the Map Controller takes the descriptor at the head of the Command Queue that the
command arbiter picks (R31, R32), and reads issuer and fields from there (R34, R171).
DEDUCED (log entry 3): a table row names the kind of descriptor taken. -/
inductive Instr where
  -- takings at the Map Controller
  | alloc
  | cancelAlloc
  | setLabel
  | setInherit
  | queryFrame
  | free
  | grant
  | revoke
  | release
  | offer
  | accept
  | decline
  | withdraw
  | setWindow
  | clearWindow
  | mapSlot
  | unmapSlot
  | queryHost
  | leave
  | badCommand
  -- control accesses of port h
  | staging (h : HostId) (w : ControlWrite)
  | submit (h : HostId) (w : ControlWrite)
  | join (h : HostId) (w : ControlWrite)
  /-- A control read of EVENT_POP of `len` bytes. -/
  | eventPop (h : HostId) (len : Nat)
  /-- A control read of FAULT_POP of `len` bytes. -/
  | faultPop (h : HostId) (len : Nat)
  | noticeLostClear (h : HostId) (w : ControlWrite)
  | intEnable (h : HostId) (w : ControlWrite)
  | controlWrite (h : HostId) (w : ControlWrite)
  -- the access path
  | dataRequestArrival (h : HostId) (r : DataRequest)
  | poolGrant
  | scrubWritePerformed
  /-- The end of a read, with the bit errors that have arisen in the first and the second pool block it touches
  (log entry 10). -/
  | readPerformed (e0 e1 : BlockError)
  /-- The end of a write, with the bit errors that have arisen in the first and the second pool block it touches
  (log entry 10). -/
  | writePerformed (e0 e1 : BlockError)
  -- events of the Map Controller
  | drainCheck (h : HostId) (f : Nat)
  | graceExpiry (id : Fin 16)
  | offerExpiry (slot : Fin 8)
  -- start-up and links
  | tick
  | loadTimeout
  /-- The 64 bytes the PROM answered with, byte 0 first. -/
  | imageReceived (image : List Byte)
  | linkUp (h : HostId)
  | linkDown (h : HostId)
  | drainPhaseEnd (h : HostId)
  | sweepStep (h : HostId)
  | deviceReset
  /-- The pool size strap as it stands at the deassertion. -/
  | resetDeassert (strap : BitVec 2)
  deriving DecidableEq, Repr

end Sys2Proof
end

