-- ==== Sys2Proof/Config.lean ====
section
/-! DEFINITION. What the part fixes (00_scope.md, Numbers used throughout) and the free values: constants with no body,
of which no proof can use more than that they exist. -/

namespace Sys2Proof.Config

/-- Bytes in a frame: 64 KiB. -/
abbrev frameBytes : Nat := 65536

/-- Bytes in a pool block, the unit of ECC. -/
abbrev blockBytes : Nat := 64

/-- Pool blocks in a frame. -/
abbrev blocksPerFrame : Nat := 1024

/-- Bytes of a data aperture: 64 GiB. -/
abbrev apertureBytes : Nat := 68719476736

/-- Windows of a host. -/
abbrev windowCount : Nat := 8

/-- Slots of a host. -/
abbrev slotCount : Nat := 4096

/-- Descriptors a Command Queue holds. -/
abbrev commandQueueDepth : Nat := 16

/-- Entries of an Event Queue. -/
abbrev eventQueueDepth : Nat := 64

/-- Records of a Fault Log. -/
abbrev faultLogDepth : Nat := 8

/-- Records of the Recall Table. -/
abbrev recallCount : Nat := 16

/-- Slots of the Offer Table. -/
abbrev offerCount : Nat := 8

/-- The tick at which the configuration load times out (R160). -/
abbrev loadTimeoutTick : Nat := 100

/-- FREE VALUE (log entry 9): the byte a pool address holds after the given device reset until its pool block is next
written. "The contents of every pool block after device reset are unknown" (R126). -/
opaque unknownByte : Nat → Nat → Byte

/-- FREE VALUE (log entry 9): the ECC condition of a pool block after the given device reset until it is next written;
"its ECC may be uncorrectable" (R126). -/
opaque unknownBlockError : Nat → Nat → BlockError

/-- FREE VALUE (log entry 11): the rank of a frame, or of an offer slot, in the n-th event whose parts the spec leaves
unordered. Only the order of the ranks is used. -/
opaque freeRank : Nat → Nat → Nat

end Sys2Proof.Config
end

