-- ==== Sys2Proof/Machine/Table.lean ====
section
/-! DEFINITION. Sparse tables keyed by number, in one canonical form, and the values kept per host: reading and writing. -/

namespace Sys2Proof

/-- The value kept for a host. -/
def PerHost.get {α : Type} (p : PerHost α) (h : HostId) : α :=
  match h with
  | 0 => p.h0
  | 1 => p.h1
  | 2 => p.h2
  | 3 => p.h3

/-- The values with one host's replaced. -/
def PerHost.set {α : Type} (p : PerHost α) (h : HostId) (v : α) : PerHost α :=
  match h with
  | 0 => { p with h0 := v }
  | 1 => { p with h1 := v }
  | 2 => { p with h2 := v }
  | 3 => { p with h3 := v }

/-- One value per host, computed from the host. -/
def PerHost.make {α : Type} (g : HostId → α) : PerHost α := ⟨g 0, g 1, g 2, g 3⟩

/-- The same value for all four hosts. -/
def PerHost.all {α : Type} (v : α) : PerHost α := ⟨v, v, v, v⟩

end Sys2Proof

namespace Sys2Proof.Machine

/-- A sparse table: (key, value) pairs. A key that is not listed holds the table's unlisted value. -/
abbrev Table (α : Type) := List (Nat × α)

/-- The value at a key; `d` is the unlisted value. -/
def Table.get {α : Type} (d : α) : Table α → Nat → α
  | [], _ => d
  | (j, v) :: rest, k => if k = j then v else Table.get d rest k

/-- The table without any entry for a key. -/
def Table.erase {α : Type} (t : Table α) (k : Nat) : Table α :=
  t.filter (fun e => e.1 != k)

/-- The table with an entry put at its place in rising order of keys. -/
def Table.insert {α : Type} : Table α → Nat → α → Table α
  | [], k, v => [(k, v)]
  | (j, w) :: rest, k, v =>
    if k < j then (k, v) :: (j, w) :: rest
    else if k = j then (k, v) :: rest
    else (j, w) :: Table.insert rest k v

/-- The table with a key set to a value; setting the unlisted value removes the entry. -/
def Table.set {α : Type} [DecidableEq α] (d : α) (t : Table α) (k : Nat) (v : α) : Table α :=
  if v = d then Table.erase t k else Table.insert t k v

/-- The canonical form: keys strictly rising, no entry equal to the unlisted value. -/
abbrev Table.wf {α : Type} (d : α) (t : Table α) : Prop :=
  t.Pairwise (fun a b => a.1 < b.1) ∧ ∀ e ∈ t, e.2 ≠ d

/-- Insertion of a number into a list by ascending rank, after those of equal rank. -/
def insertRanked (rank : Nat → Nat) (x : Nat) : List Nat → List Nat
  | [] => [x]
  | y :: ys => if rank y ≤ rank x then y :: insertRanked rank x ys else x :: y :: ys

/-- A list of numbers in ascending order of rank. -/
def sortRanked (rank : Nat → Nat) : List Nat → List Nat
  | [] => []
  | x :: xs => insertRanked rank x (sortRanked rank xs)

end Sys2Proof.Machine
end

