-- ==== Sys2Proof/Machine/State.lean ====
section
/-! DEFINITION. The state of the KV416: every register, table, queue, counter, mode and pin the spec gives it, as plain
data, and its value at device reset. -/

namespace Sys2Proof.Machine

/-! ### The Frame Table (Chapter 1) -/

/-- Access level of a host on a frame (section 1.3). -/
inductive Level where
  | none
  | read
  | rw
  deriving DecidableEq, Repr

/-- State of a frame (section 1.2). -/
inductive FrameState where
  | free
  | held
  | freeing
  | scrubbing
  deriving DecidableEq, Repr

/-- The name of an offer: Offer Table slot and serial (R70). The slot part of a handle a command carries may be any byte. -/
structure Handle where
  slot : Nat
  serial : BitVec 8
  deriving DecidableEq, Repr

/-- A Frame Record (section 1.1). -/
structure FrameRecord where
  state : FrameState
  owner : Option HostId
  access : PerHost Level
  closing : PerHost Bool
  generation : BitVec 8
  label : Option (BitVec 16)
  inheritFlag : Bool
  damaged : Bool
  offer : Option Handle
  /-- The ids of the Recall Records on the frame, rising. -/
  recallSet : List Nat
  deriving DecidableEq, Repr

/-- A Frame Record as the end of the configuration load makes it (R2): what an unlisted frame holds. -/
def FrameRecord.initial : FrameRecord where
  state := .scrubbing
  owner := none
  access := PerHost.all .none
  closing := PerHost.all false
  generation := 0
  label := none
  inheritFlag := false
  damaged := false
  offer := none
  recallSet := []

/-- An entry of the Allocation Wait List (R22). -/
structure WaitEntry where
  host : HostId
  tag : BitVec 16
  count : Nat
  label : Option (BitVec 16)
  inheritFlag : Bool
  deriving DecidableEq, Repr

/-! ### The Recall Table and the Offer Table (Chapters 3 and 4) -/

/-- The command that created a Recall Record (section 3.1). -/
inductive Purpose where
  | revoke
  | release
  | free
  | handover
  deriving DecidableEq, Repr

/-- Phase of a target of a Recall Record (section 3.1). -/
inductive Phase where
  | notice
  | closing
  | drained
  deriving DecidableEq, Repr

/-- A Recall Record in use (section 3.1). A host that is no target holds `none` in `targets`.
`tag` is the tag of the requester's command, which its completion carries (R36, R50; log entry 14). -/
structure RecallRecord where
  frame : Nat
  purpose : Purpose
  requester : HostId
  tag : BitVec 16
  /-- The mode: `true` is FORCED, `false` GRACEFUL. -/
  forced : Bool
  targets : PerHost (Option Phase)
  deadline : Option (BitVec 32)
  deriving DecidableEq, Repr

/-- An Offer Record (section 4.1). Its handle is its slot with the slot's serial. -/
structure Offer where
  frame : Nat
  giver : HostId
  recipient : HostId
  residual : Level
  deadline : BitVec 32
  deriving DecidableEq, Repr

/-- A slot of the Offer Table: its serial, and the open offer in it (R70). -/
structure OfferSlot where
  serial : BitVec 8
  offer : Option Offer
  deriving DecidableEq, Repr

/-- A slot of the Offer Table after device reset (R70): what an unlisted slot holds. -/
def OfferSlot.initial : OfferSlot := ⟨0, none⟩

/-! ### Departures (Chapter 8) -/

/-- Cause of a departure (R147); a LEAVE carries the tag its completion will carry (R156; log entry 14). -/
inductive Cause where
  | leave (tag : BitVec 16)
  | link
  deriving DecidableEq, Repr

/-- Phase of a departure (section 8.3). While SWEEPING: the sweep position, and whether a forced freeing of the frame
at it, begun by this sweep, is under way (R151, R154; log entry 14). -/
inductive DeparturePhase where
  | draining
  | sweeping (position : Nat) (freeing : Bool)
  deriving DecidableEq, Repr

/-- A departure record (section 8.3); its host is the place it is kept at. -/
structure Departure where
  cause : Cause
  phase : DeparturePhase
  deriving DecidableEq, Repr

/-! ### Configuration (Chapter 9) -/

/-- The load state (section 9.2). -/
inductive LoadState where
  | loading
  | loaded
  | defaulted
  deriving DecidableEq, Repr

/-- The configuration in effect (sections 9.1 and 9.2). -/
structure Configuration where
  /-- N, the number of frames. -/
  frames : Nat
  enabled : PerHost Bool
  quota : PerHost Nat
  grace : Nat
  lifetime : Nat
  deriving DecidableEq, Repr

/-! ### Events and faults (Chapters 2 and 7) -/

/-- Result codes of completions (R40). -/
inductive Result where
  | ok
  | badCommand
  | badArgument
  | notOwner
  | isOwner
  | noAccess
  | wrongState
  | quota
  | noFrames
  | busy
  | noRecord
  | late
  | gone
  | overlap
  | cancelled
  | notFound
  | ownerLeaving
  | hostAbsent
  deriving DecidableEq, Repr

/-- The host figures a QUERY_HOST completion carries (R41). -/
structure HostFigures where
  owned : Nat
  quota : Nat
  waiting : Nat
  members : PerHost Bool
  freeLength : Nat
  scrubLength : Nat
  load : LoadState
  frames : Nat
  grace : Nat
  lifetime : Nat
  deriving DecidableEq, Repr

/-- Payload of a completion (R40, R128). -/
inductive Payload where
  | none
  | frames (taken : List Nat)
  | freeLength (n : Nat)
  | handle (h : Handle)
  | snapshot (frame : Nat) (r : FrameRecord)
  | figures (f : HostFigures)
  deriving DecidableEq, Repr

/-- Purpose a REVOKED notice names (section 7.2). -/
inductive RevokePurpose where
  | revoke
  | free
  | handover
  | depart
  deriving DecidableEq, Repr

/-- Reason a GRANT_DROPPED notice names (section 7.2). -/
inductive DropReason where
  | release
  | depart
  deriving DecidableEq, Repr

/-- Reason an OFFER_CLOSED notice names (section 7.2). -/
inductive CloseReason where
  | accepted
  | declined
  | withdrawn
  | expired
  | partyLeft
  deriving DecidableEq, Repr

/-- Cause an OWNER_CHANGED notice names (section 7.2). -/
inductive OwnerCause where
  | offer
  | inherit
  deriving DecidableEq, Repr

/-- An event record (section 7.2). The kind NONE is never posted (R128). -/
inductive Event where
  | completion (tag : BitVec 16) (code : BitVec 8) (result : Result) (payload : Payload)
  | granted (frame : Nat) (owner : HostId) (level : Level) (label : Option (BitVec 16))
  | recallNotice (frame : Nat) (id : Nat) (ticks : Nat)
  | revoked (frame : Nat) (purpose : RevokePurpose)
  | grantDropped (frame : Nat) (host : HostId) (reason : DropReason)
  | offerReceived (handle : Handle) (frame : Nat) (giver : HostId) (residual : Level)
      (label : Option (BitVec 16)) (ticks : Nat)
  | offerClosed (handle : Handle) (frame : Nat) (reason : CloseReason)
  | ownerChanged (frame : Nat) (owner : HostId) (cause : OwnerCause)
  | ownershipReceived (frame : Nat) (former : HostId) (label : Option (BitVec 16))
  | hostJoined (host : HostId)
  | hostLeft (host : HostId)
  deriving DecidableEq, Repr

/-- Fault kinds of fault records (R134). -/
inductive FaultKind where
  | noWindow
  | readOnlyWindow
  | emptySlot
  | staleSlot
  | frameState
  | noRights
  | recalled
  | creditViolation
  | poolData
  deriving DecidableEq, Repr

/-- A fault record (R134). -/
structure FaultRecord where
  kind : FaultKind
  /-- The request kind: `true` is a write. -/
  isWrite : Bool
  address : Nat
  length : Nat
  window : Option Nat
  frame : Option Nat
  suppressed : Nat
  deriving DecidableEq, Repr

/-! ### Host Ports (Chapters 2, 7 and 8) -/

/-- Port states (R142). -/
inductive PortState where
  | down
  | attached
  | member
  | leaving
  deriving DecidableEq, Repr

/-- Submit status (R29). -/
inductive SubmitStatus where
  | none
  | accepted
  | queueFull
  | notMember
  deriving DecidableEq, Repr

/-- Join status (R145). -/
inductive JoinStatus where
  | none
  | joined
  | notReady
  | hostDisabled
  | notAttached
  deriving DecidableEq, Repr

/-- Status of a read completion (R109, R167). -/
inductive ReadStatus where
  | ok
  | accessFault
  | dataError
  deriving DecidableEq, Repr

/-- A message a port sends to its host on the link (R109, R125, R167). -/
inductive LinkMessage where
  /-- Completion of a data read; it carries the credit return of its tag. -/
  | readCompletion (tag : Fin 32) (status : ReadStatus) (data : List Byte)
  /-- A credit-return message naming a tag. -/
  | creditReturn (tag : Fin 32)
  /-- The credit-return messages of one link-up, one for each tag listed; the spec gives them no order (log entry 8). -/
  | creditGrant (tags : List (Fin 32))
  /-- Completion of a control read that has an effect (EVENT_POP, FAULT_POP). -/
  | controlRead (status : ReadStatus) (data : List Byte)
  deriving DecidableEq, Repr

/-- A Host Port. -/
structure HostPort where
  portState : PortState
  linkUp : Bool
  /-- The 32 bytes of the staging area, byte 0 first (R28). -/
  staging : List Byte
  submitStatus : SubmitStatus
  joinStatus : JoinStatus
  /-- The Command Queue: descriptors of 32 bytes, oldest first (R30). -/
  queue : List (List Byte)
  /-- The records of the Event Queue, oldest first (R127). -/
  events : List Event
  reserved : Nat
  noticeLost : Bool
  /-- The Fault Log, oldest first (R134). -/
  faults : List FaultRecord
  eventIe : Bool
  faultIe : Bool
  /-- The interrupt line HIRQh (R139). -/
  hirq : Bool
  /-- What the port has sent on its link, oldest first: the model's record of its outputs (log entry 8). -/
  sent : List LinkMessage
  deriving DecidableEq, Repr

/-- A Host Port after device reset (section 9.5). -/
def HostPort.initial : HostPort where
  portState := .down
  linkUp := false
  staging := List.replicate 32 0
  submitStatus := .none
  joinStatus := .none
  queue := []
  events := []
  reserved := 0
  noticeLost := false
  faults := []
  eventIe := false
  faultIe := false
  hirq := false
  sent := []

/-! ### Translation Units (Chapters 5 and 6) -/

/-- How a valid window resolves its pages (section 5.1). -/
inductive WindowMap where
  | direct (firstFrame : Nat)
  | mapped (slotBase : Nat)
  deriving DecidableEq, Repr

/-- A valid window (section 5.1). -/
structure Window where
  base : Nat
  sizeCode : Nat
  map : WindowMap
  writable : Bool
  deriving DecidableEq, Repr

/-- A slot that holds a frame (section 5.3). -/
structure Slot where
  frame : Nat
  generation : BitVec 8
  deriving DecidableEq, Repr

/-- An entry of the Outstanding Request Table (R111). -/
structure OrtEntry where
  tag : Fin 32
  access : Access
  address : Nat
  frame : Nat
  offset : Nat
  length : Nat
  /-- The phase: `true` is IN_POOL, `false` WAITING. -/
  inPool : Bool
  deriving DecidableEq, Repr

/-- A Translation Unit. -/
structure TranslationUnit where
  windows : Table (Option Window)
  slots : Table (Option Slot)
  /-- The Outstanding Request Table in admission order (R111). -/
  ort : List OrtEntry
  deriving DecidableEq, Repr

/-- A Translation Unit after device reset (section 9.5). -/
def TranslationUnit.initial : TranslationUnit := ⟨[], [], []⟩

/-! ### Pool Controller (Chapter 6) -/

/-- What the Pool Controller is performing (R113). -/
inductive Job where
  | idle
  /-- The IN_POOL entry of a port. -/
  | port (h : HostId)
  /-- The zero write of the scrubber. -/
  | scrub
  deriving DecidableEq, Repr

/-- What is known of a 64-byte pool block: nothing since the last device reset (R126), or its ECC condition. -/
inductive BlockStatus where
  | unknown
  | known (e : BlockError)
  deriving DecidableEq, Repr

/-! ### The whole block -/

/-- The state of the KV416. -/
structure State where
  /-- The commands that are waiting, first in, first out. -/
  pending : List Instr
  -- reset, Timebase and Configuration Loader
  resetAsserted : Bool
  strap : BitVec 2
  promSelect : Bool
  load : LoadState
  config : Option Configuration
  tick : BitVec 32
  -- the four ports
  ports : PerHost HostPort
  units : PerHost TranslationUnit
  -- Map Controller
  frames : Table FrameRecord
  recalls : Table (Option RecallRecord)
  offers : Table OfferSlot
  waitList : List WaitEntry
  owned : PerHost Nat
  waiting : PerHost Nat
  cmdPointer : HostId
  departures : PerHost (Option Departure)
  /-- Drain checks asked and not yet made: host and frame (R47; log entry 14). -/
  drainChecks : List (HostId × Nat)
  -- Frame Supply
  freeList : List Nat
  scrubQueue : List Nat
  /-- The next pool block of the frame under scrub (R17). -/
  scrubPos : Nat
  -- Pool Controller and pool memory
  job : Job
  portPointer : HostId
  turn : Nat
  /-- Pool memory by byte address; see `State.poolByte`. -/
  mem : List Host.Cell
  blocks : Table BlockStatus
  -- the model's own counters for free values (log entries 9 and 11)
  resetCount : Nat
  fresh : Nat
  deriving DecidableEq, Repr

/-- The machine right after device reset, RESET_N asserted (R166 and the table of section 9.5). -/
def State.reset : State where
  pending := []
  resetAsserted := true
  strap := 0
  promSelect := false
  load := .loading
  config := none
  tick := 0
  ports := PerHost.all HostPort.initial
  units := PerHost.all TranslationUnit.initial
  frames := []
  recalls := []
  offers := []
  waitList := []
  owned := PerHost.all 0
  waiting := PerHost.all 0
  cmdPointer := 0
  departures := PerHost.all none
  drainChecks := []
  freeList := []
  scrubQueue := []
  scrubPos := 0
  job := .idle
  portPointer := 0
  turn := 0
  mem := []
  blocks := []
  resetCount := 0
  fresh := 0

/-- Faults that stop the machine: none. No rule of the spec names a condition in which the KV416 ceases to act; the
fault kinds of Chapter 7 are records in the Fault Log (log entry 24). -/
inductive Fault where
  deriving DecidableEq, Repr

/-- Refusals. -/
inductive Refusal where
  /-- Raised by an arm of `exec` whose instruction has no meaning yet; safe. No arm raises it. -/
  | notModelled (mnemonic : String)
  deriving DecidableEq, Repr

end Sys2Proof.Machine
end

