-- ==== Sys2Proof/Machine/Operands.lean ====
section
/-! DEFINITION. The operand forms: fields of a command descriptor, of a data request, of a control access and of the PROM
image, read from the bits the host or the PROM gives. -/

namespace Sys2Proof
namespace Machine

/-! ### Bytes -/

/-- The byte at a position; positions past the end hold 0. -/
def byteAt (b : List Byte) (i : Nat) : Byte := b.getD i 0

/-- The unsigned number of `n` bytes from position `i`, least significant byte first (section 10.1). -/
def leNat (b : List Byte) (i : Nat) : Nat → Nat
  | 0 => 0
  | n + 1 => (byteAt b i).toNat + 256 * leNat b (i + 1) n

/-- The unsigned number of two bytes from position `i`, the more significant byte first (R174). -/
def beNat16 (b : List Byte) (i : Nat) : Nat := 256 * (byteAt b i).toNat + (byteAt b (i + 1)).toNat

/-- A number as `n` bytes, least significant byte first. -/
def leBytes (v : Nat) : Nat → List Byte
  | 0 => []
  | n + 1 => BitVec.ofNat 8 v :: leBytes (v / 256) n

/-! ### The command descriptor (section 10.5, R171) -/

/-- The fields of a command descriptor, each numeric field the whole unsigned number its bytes hold (R171). -/
structure Desc where
  code : Byte
  wait : Bool
  inheritFlag : Bool
  labelPresent : Bool
  writable : Bool
  tag : BitVec 16
  frame : Nat
  host : Nat
  count : Nat
  level : Nat
  mode : Nat
  time : Nat
  label : BitVec 16
  handle : Handle
  window : Nat
  sizeCode : Nat
  windowMode : Nat
  base : Nat
  /-- First frame of a DIRECT window, or slot base of a MAPPED one. -/
  first : Nat
  slot : Nat
  deriving DecidableEq, Repr

/-- The fields a taking reads, from the positions of section 10.5. -/
def Desc.ofBytes (b : List Byte) : Desc where
  code := byteAt b 0
  wait := (byteAt b 1).getLsbD 0
  inheritFlag := (byteAt b 1).getLsbD 1
  labelPresent := (byteAt b 1).getLsbD 2
  writable := (byteAt b 1).getLsbD 3
  tag := BitVec.ofNat 16 (leNat b 2 2)
  frame := leNat b 4 2
  host := leNat b 6 1
  count := leNat b 7 1
  level := leNat b 8 1
  mode := leNat b 9 1
  time := leNat b 10 2
  label := BitVec.ofNat 16 (leNat b 12 2)
  handle := ⟨leNat b 14 1, byteAt b 15⟩
  window := leNat b 16 1
  sizeCode := leNat b 17 1
  windowMode := leNat b 18 1
  base := leNat b 20 8
  first := leNat b 28 2
  slot := leNat b 30 2

/-- The label a command gives: present as LABEL_PRESENT says (R20, R25). -/
def Desc.labelOf (d : Desc) : Option (BitVec 16) := if d.labelPresent then some d.label else none

/-- The host a host field names; `none` for a byte of 4 or more (R171). -/
def hostOfNat (n : Nat) : Option HostId :=
  match n with
  | 0 => some 0
  | 1 => some 1
  | 2 => some 2
  | 3 => some 3
  | _ => none

/-- The level a level field names; `none` for a byte of 3 or more (R171). -/
def levelOfNat (n : Nat) : Option Level :=
  match n with
  | 0 => some .none
  | 1 => some .read
  | 2 => some .rw
  | _ => none

/-- The mode field is GRACEFUL (0) or FORCED (1) (R34, section 10.5). -/
def Desc.modeLegal (d : Desc) : Bool := decide (d.mode ≤ 1)

/-- The mode field is FORCED. -/
def Desc.isForced (d : Desc) : Bool := decide (d.mode = 1)

/-- The code of each level (section 10.5). -/
def Level.code : Level → Nat
  | .none => 0
  | .read => 1
  | .rw => 2

/-! ### Command codes (section 10.5) -/

def codeAlloc : Byte := 0x01
def codeCancelAlloc : Byte := 0x02
def codeFree : Byte := 0x03
def codeGrant : Byte := 0x04
def codeRevoke : Byte := 0x05
def codeRelease : Byte := 0x06
def codeOffer : Byte := 0x07
def codeAccept : Byte := 0x08
def codeDecline : Byte := 0x09
def codeWithdraw : Byte := 0x0A
def codeSetLabel : Byte := 0x0B
def codeSetInherit : Byte := 0x0C
def codeSetWindow : Byte := 0x0D
def codeClearWindow : Byte := 0x0E
def codeMapSlot : Byte := 0x0F
def codeUnmapSlot : Byte := 0x10
def codeQueryFrame : Byte := 0x11
def codeQueryHost : Byte := 0x12
def codeLeave : Byte := 0x13

/-- A code names a command: 01h to 13h (R34, R171). -/
def codeKnown (c : Byte) : Bool := decide (1 ≤ c.toNat ∧ c.toNat ≤ 0x13)

/-- The command code a Recall Record's completion carries (R50). -/
def Purpose.code : Purpose → Byte
  | .revoke => codeRevoke
  | .release => codeRelease
  | .free => codeFree
  | .handover => codeAccept

/-! ### Data requests (R107) -/

/-- The request's first address in the data aperture. -/
def requestAddress (r : DataRequest) : Nat := r.block.toNat * 128 + r.firstWord.val * 4

/-- The request's length in bytes. -/
def requestLength (r : DataRequest) : Nat := (r.lastWord.val - r.firstWord.val + 1) * 4

end Machine

/-- The request is a write. -/
def Access.isWrite : Access → Bool
  | .read => false
  | .write _ => true

namespace Machine

/-- The link's request format can express the request (R107): the last word is not before the first, and a write
carries one byte and one mask flag for each byte of its length. -/
def requestExpressible (r : DataRequest) : Bool :=
  decide (r.firstWord ≤ r.lastWord) &&
    match r.access with
    | .read => true
    | .write bytes => decide (bytes.length = requestLength r)

/-! ### Control accesses (R167, R169) -/

/-- A control access is well made: 4 to 32 bytes, a multiple of 4, within one naturally aligned 32-byte region of the
4 KiB aperture (R167). -/
def accessLegal (offset len : Nat) : Bool :=
  decide (4 ≤ len ∧ len ≤ 32 ∧ len % 4 = 0 ∧ offset / 32 = (offset + len - 1) / 32 ∧ offset + len ≤ 4096)

def regJoin : Nat := 0x060
def regSubmit : Nat := 0x080
def regIntEnable : Nat := 0x0A0
def regNoticeLostClear : Nat := 0x0C0
def regEventPop : Nat := 0x0E0
def regFaultPop : Nat := 0x100
def regStaging : Nat := 0x200
def regEventWindow : Nat := 0x300
def regFaultWindow : Nat := 0x400

end Machine

/-- The byte a control write enables at an aperture offset, if it is well made, covers it and has its mask flag set. -/
def ControlWrite.byteAt (w : ControlWrite) (a : Nat) : Option Byte :=
  if Machine.accessLegal w.offset w.bytes.length ∧ w.offset ≤ a then
    match w.bytes[a - w.offset]? with
    | some (v, true) => some v
    | _ => none
  else none

/-- The control write enables at least one byte of the register of `size` bytes at an offset. -/
def ControlWrite.touches (w : ControlWrite) (offset size : Nat) : Bool :=
  (List.range size).any (fun i => (w.byteAt (offset + i)).isSome)

/-- The control write writes 1 to NOTICE_LOST_CLEAR (R132, R169). -/
def ControlWrite.clearsNoticeLost (w : ControlWrite) : Bool :=
  match w.byteAt Machine.regNoticeLostClear with
  | some v => v.getLsbD 0
  | none => false

/-- The control write has an effect somewhere: it belongs to another row than CONTROL_WRITE (R167, R169). -/
def ControlWrite.acts (w : ControlWrite) : Bool :=
  w.touches Machine.regJoin 4 || w.touches Machine.regSubmit 4 || w.touches Machine.regIntEnable 1 ||
    w.clearsNoticeLost || w.touches Machine.regStaging 32

namespace Machine

/-- The staging bytes after a control write (R28). -/
def stagingAfter (w : ControlWrite) (old : List Byte) : List Byte :=
  old.mapIdx (fun i v => (w.byteAt (regStaging + i)).getD v)

/-! ### The PROM image (section 10.7, R161, R174) -/

/-- One bit step of the CRC with generator 1021h. -/
def crcStep (c : BitVec 16) : BitVec 16 := if c.msb then (c <<< 1) ^^^ 0x1021 else c <<< 1

/-- The CRC after one more byte, most significant bit first. -/
def crcByte (c : BitVec 16) (b : Byte) : BitVec 16 :=
  let c := c ^^^ (b.zeroExtend 16 <<< 8)
  crcStep (crcStep (crcStep (crcStep (crcStep (crcStep (crcStep (crcStep c)))))))

/-- The 16-bit CRC of a run of bytes, starting from FFFFh, with no final inversion (R161). -/
def crc16 (b : List Byte) : BitVec 16 := b.foldl crcByte 0xFFFF

/-- N of a pool size code (section 9.1). -/
def framesOfCode (code : Nat) : Nat := 4096 * 2 ^ code

/-- The pool size code a strap stands for; code 3 is taken as code 0 (R162). -/
def strapCode (strap : BitVec 2) : Nat := if strap = 3 then 0 else strap.toNat

/-- Quota of host `k` in the image. -/
def imageQuota (img : List Byte) (k : HostId) : Nat := beNat16 img (4 + 2 * k.val)

/-- The image passes the checks of R161 against the strap. The order in which they are made does not show, since every
failed check has the same effect. -/
def imagePasses (img : List Byte) (strap : BitVec 2) : Bool :=
  let size := (byteAt img 1).toNat
  decide ((crc16 (img.take 62)).toNat = beNat16 img 62) &&
  decide (byteAt img 0 = 0x3A) &&
  decide (size ≤ 2) &&
  decide (size ≤ strapCode strap) &&
  hosts.all (fun k => decide (imageQuota img k ≤ framesOfCode size)) &&
  decide (beNat16 img 12 ≠ 0 ∧ beNat16 img 14 ≠ 0)

/-- The configuration of an image that passes (R161). -/
def imageConfiguration (img : List Byte) : Configuration where
  frames := framesOfCode (byteAt img 1).toNat
  enabled := PerHost.make (fun k => (byteAt img 2).getLsbD k.val)
  quota := PerHost.make (imageQuota img)
  grace := beNat16 img 12
  lifetime := beNat16 img 14

/-- The default configuration (R162). -/
def defaultConfiguration (strap : BitVec 2) : Configuration where
  frames := framesOfCode (strapCode strap)
  enabled := PerHost.all true
  quota := PerHost.all (framesOfCode (strapCode strap) / 4)
  grace := 100
  lifetime := 2000

end Machine
end Sys2Proof
end

