-- ==== Sys2Proof/Machine/Flags.lean ====
section
/-! DEFINITION. Conditions and flags computed from State: the interrupt condition, room in an Event Queue, deadlines,
levels, and the conditions of a Recall Record's targets. -/

namespace Sys2Proof
namespace Machine

/-! ### Ports -/

/-- The HIRQ condition of a port (R139). -/
def HostPort.hirqCondition (p : HostPort) : Bool :=
  (p.eventIe && (!p.events.isEmpty || p.noticeLost)) || (p.faultIe && !p.faults.isEmpty)

/-- The Event Queue has an unreserved free entry: occupied plus reserved entries are fewer than 64 (R31, R130). -/
def HostPort.hasFreeEntry (p : HostPort) : Bool :=
  decide (p.events.length + p.reserved < Config.eventQueueDepth)

/-- The host is eligible for a taking (R31). -/
def HostPort.eligible (p : HostPort) : Bool :=
  decide (p.portState = .member) && p.hasFreeEntry && !p.queue.isEmpty

/-! ### Deadlines -/

/-- A deadline is reached by a counter: the counter less the deadline, modulo 2^32, is below 2^31 (R165). -/
def deadlineReached (counter deadline : BitVec 32) : Bool :=
  decide ((counter - deadline).toNat < 2 ^ 31)

/-- The deadline set at a counter value with a grace or lifetime in ticks (R165). -/
def deadlineAfter (counter : BitVec 32) (ticks : Nat) : BitVec 32 := counter + BitVec.ofNat 32 ticks

/-- The ticks remaining to a deadline (R165). -/
def ticksRemaining (counter deadline : BitVec 32) : Nat := (deadline - counter).toNat

/-! ### Levels -/

/-- The level permits the access (section 1.3, R102). -/
def Level.permits : Level → Access → Bool
  | .none, _ => false
  | .read, a => !a.isWrite
  | .rw, _ => true

end Machine

/-- The worse of two ECC conditions of one pool block. -/
def BlockError.worse : BlockError → BlockError → BlockError
  | .uncorrectable, _ => .uncorrectable
  | _, .uncorrectable => .uncorrectable
  | .single, _ => .single
  | .none, e => e

namespace Machine

/-! ### Frame Records -/

/-- The frame is owned: HELD or FREEING (R3). -/
def FrameRecord.isOwned (r : FrameRecord) : Bool := decide (r.state = .held ∨ r.state = .freeing)

/-- The hosts with a level other than NONE, other than those excluded by `skip`. -/
def FrameRecord.holders (r : FrameRecord) (skip : HostId → Bool) : List HostId :=
  hosts.filter (fun k => !skip k && decide (r.access.get k ≠ .none))

/-! ### Recall Records -/

/-- The host is a target not yet DRAINED. -/
def RecallRecord.undrained (r : RecallRecord) (k : HostId) : Bool :=
  decide (r.targets.get k = some .notice ∨ r.targets.get k = some .closing)

/-- The target is the owner's own in a FREE record; the owner of a FREEING frame is the FREE's requester (R65). -/
def RecallRecord.isOwnerTarget (r : RecallRecord) (k : HostId) : Bool :=
  decide (r.purpose = .free ∧ r.requester = k)

/-- Every target other than host `k`'s is DRAINED. -/
def RecallRecord.othersDrained (r : RecallRecord) (k : HostId) : Bool :=
  hosts.all (fun j => decide (j = k) || !r.undrained j)

/-- Every target is DRAINED. -/
def RecallRecord.allDrained (r : RecallRecord) : Bool := hosts.all (fun j => !r.undrained j)

/-- Some target is in NOTICE. -/
def RecallRecord.someNotice (r : RecallRecord) : Bool :=
  hosts.any (fun j => decide (r.targets.get j = some .notice))

/-- Some target other than host `k`'s is in NOTICE. -/
def RecallRecord.someOtherNotice (r : RecallRecord) (k : HostId) : Bool :=
  hosts.any (fun j => decide (j ≠ k) && decide (r.targets.get j = some .notice))

/-- The owner's target of a FREE record is in CLOSING with every other target DRAINED: what its drain check waits for
(R66). -/
def RecallRecord.ownerReady (r : RecallRecord) : Bool :=
  decide (r.purpose = .free) && decide (r.targets.get r.requester = some .closing) && r.othersDrained r.requester

end Machine
end Sys2Proof
end

