-- ==== Sys2Proof/Machine/Ops.lean ====
section
/-! DEFINITION. The shared operations: reading and writing the parts of State, posting records, allocation service, the
recall machinery, offers, departures, the access check, and the pool. -/

namespace Sys2Proof.Machine

/-! ### Parts of the state -/

def State.port (s : State) (h : HostId) : HostPort := s.ports.get h

def State.setPort (s : State) (h : HostId) (p : HostPort) : State := { s with ports := s.ports.set h p }

def State.updPort (s : State) (h : HostId) (g : HostPort → HostPort) : State := s.setPort h (g (s.port h))

def State.unit (s : State) (h : HostId) : TranslationUnit := s.units.get h

def State.setUnit (s : State) (h : HostId) (u : TranslationUnit) : State := { s with units := s.units.set h u }

def State.updUnit (s : State) (h : HostId) (g : TranslationUnit → TranslationUnit) : State :=
  s.setUnit h (g (s.unit h))

/-- The Frame Record of a frame. -/
def State.frame (s : State) (f : Nat) : FrameRecord := Table.get FrameRecord.initial s.frames f

def State.setFrame (s : State) (f : Nat) (r : FrameRecord) : State :=
  { s with frames := Table.set FrameRecord.initial s.frames f r }

def State.updFrame (s : State) (f : Nat) (g : FrameRecord → FrameRecord) : State := s.setFrame f (g (s.frame f))

/-- The Recall Record with an id, if in use. -/
def State.record (s : State) (id : Nat) : Option RecallRecord := Table.get none s.recalls id

def State.setRecord (s : State) (id : Nat) (r : Option RecallRecord) : State :=
  { s with recalls := Table.set none s.recalls id r }

/-- A slot of the Offer Table. -/
def State.offerSlot (s : State) (i : Nat) : OfferSlot := Table.get OfferSlot.initial s.offers i

def State.setOfferSlot (s : State) (i : Nat) (o : OfferSlot) : State :=
  { s with offers := Table.set OfferSlot.initial s.offers i o }

def TranslationUnit.window (u : TranslationUnit) (i : Nat) : Option Window := Table.get none u.windows i

def TranslationUnit.slot (u : TranslationUnit) (i : Nat) : Option Slot := Table.get none u.slots i

/-- N, the number of frames of the configuration in effect; 0 while there is none (R1, R2). -/
def State.frameCount (s : State) : Nat :=
  match s.config with
  | some c => c.frames
  | none => 0

/-- Quota of a host (R14). -/
def State.quotaOf (s : State) (h : HostId) : Nat :=
  match s.config with
  | some c => c.quota.get h
  | none => 0

/-- The grace a time field stands for (R34, R51). -/
def State.graceOf (s : State) (time : Nat) : Nat :=
  if time = 0 then
    match s.config with
    | some c => c.grace
    | none => 0
  else time

/-- The offer lifetime a time field stands for (R34, R73). -/
def State.lifetimeOf (s : State) (time : Nat) : Nat :=
  if time = 0 then
    match s.config with
    | some c => c.lifetime
    | none => 0
  else time

/-- The host is MEMBER. -/
def State.isMember (s : State) (h : HostId) : Bool := decide ((s.port h).portState = .member)

/-- The host is LEAVING. -/
def State.isLeaving (s : State) (h : HostId) : Bool := decide ((s.port h).portState = .leaving)

/-- The frame's owner is a host in the LEAVING state (R35). -/
def State.ownerLeaving (s : State) (f : Nat) : Bool :=
  match (s.frame f).owner with
  | some o => s.isLeaving o
  | none => false

/-- The link of a port delivers what its host sends: it is up and RESET_N is deasserted (R99, R166, R167). -/
def State.delivers (s : State) (h : HostId) : Bool := (s.port h).linkUp && !s.resetAsserted

/-! ### Host Port: the Event Queue, the Fault Log and the link (Chapter 7) -/

/-- HIRQh follows its condition (R139). -/
def HostPort.refreshHirq (p : HostPort) : HostPort := { p with hirq := p.hirqCondition }

/-- Posting of a notice (R130): into a free entry of a MEMBER port's queue, or dropped with NOTICE_LOST set, or
discarded at a port that is not MEMBER. -/
def HostPort.postNotice (p : HostPort) (e : Event) : HostPort :=
  if p.portState = .member then
    if p.hasFreeEntry then { p with events := p.events ++ [e] }.refreshHirq
    else { p with noticeLost := true }.refreshHirq
  else p

/-- Posting of a completion into its reserved entry (R129); discarded at a port that is not MEMBER. Without a reservation
there is no entry to move (log entry 17). -/
def HostPort.postCompletion (p : HostPort) (e : Event) : HostPort :=
  if p.portState = .member ∧ 0 < p.reserved then
    { p with events := p.events ++ [e], reserved := p.reserved - 1 }.refreshHirq
  else p

/-- The newest record of a full Fault Log counts one more suppressed fault, up to 255 (R135). -/
def suppressTail : List FaultRecord → List FaultRecord
  | [] => []
  | [r] => [{ r with suppressed := min 255 (r.suppressed + 1) }]
  | r :: rest => r :: suppressTail rest

/-- A fault report at a Host Port (R135). -/
def HostPort.reportFault (p : HostPort) (r : FaultRecord) : HostPort :=
  if p.portState = .member then
    if p.faults.length < Config.faultLogDepth then { p with faults := p.faults ++ [r] }.refreshHirq
    else { p with faults := suppressTail p.faults }.refreshHirq
  else p

/-- Both lists, the reservations, NOTICE_LOST and the enables emptied, HIRQh deasserted (R140, R141). -/
def HostPort.clearLists (p : HostPort) : HostPort :=
  { p with events := [], reserved := 0, noticeLost := false, faults := [], eventIe := false, faultIe := false,
           hirq := false }

/-- Host Port h's part of a departure start (R30, R140, R147). -/
def HostPort.startLeaving (p : HostPort) : HostPort :=
  { p.clearLists with portState := .leaving, queue := [] }

/-- A message sent on the link; nothing is sent while the link is down (R109, R124). -/
def HostPort.send (p : HostPort) (m : LinkMessage) : HostPort :=
  if p.linkUp then { p with sent := p.sent ++ [m] } else p

/-- Posting of a notice to a host. -/
def State.notify (s : State) (h : HostId) (e : Event) : State := s.updPort h (·.postNotice e)

/-- Posting of one notice to each of several hosts. -/
def State.notifyAll (s : State) (l : List HostId) (e : Event) : State := l.foldl (fun s h => s.notify h e) s

/-- Posting of a completion of a host's command. -/
def State.complete (s : State) (h : HostId) (tag : BitVec 16) (code : Byte) (result : Result)
    (payload : Payload) : State :=
  s.updPort h (·.postCompletion (.completion tag code result payload))

/-- Posting of the completion of a command with no payload, with its own code and tag (R36). -/
def State.finish (s : State) (h : HostId) (d : Desc) (result : Result) : State :=
  s.complete h d.tag d.code result .none

def State.send (s : State) (h : HostId) (m : LinkMessage) : State := s.updPort h (·.send m)

/-! ### Taking (Chapter 2) -/

/-- The hosts in the order the command arbiter searches them (R32). -/
def searchOrder (pointer : HostId) : List HostId := [pointer, pointer + 1, pointer + 2, pointer + 3]

/-- The host the command arbiter takes from next, with the head of its Command Queue (R31, R32). -/
def State.picked (s : State) : Option (HostId × List Byte) :=
  match (searchOrder s.cmdPointer).find? (fun h => (s.port h).eligible) with
  | some h =>
    match (s.port h).queue with
    | raw :: _ => some (h, raw)
    | [] => none
  | none => none

/-- The head leaves the Command Queue, an entry is reserved for its completion, the pointer moves on (R31, R32). -/
def State.beginTaking (s : State) (h : HostId) : State :=
  { s.updPort h (fun p => { p with queue := p.queue.tail, reserved := p.reserved + 1 }) with cmdPointer := h + 1 }

/-- The taking of a descriptor of one row of the table. `isRow` says which command codes the row stands for, `act` is
the command's effect on the state in which the descriptor has been removed and its entry reserved (R33). With no eligible
host no taking occurs (R32), and with another row's descriptor at the head it is not this row's event (log entry 2). -/
def taking (isRow : Byte → Bool) (act : HostId → Desc → State → State) (s : State) :
    Host.Outcome State Fault Refusal :=
  match s.picked with
  | none => .next s
  | some (h, raw) =>
    if isRow (Desc.ofBytes raw).code then .next (act h (Desc.ofBytes raw) (s.beginTaking h)) else .next s

/-! ### Allocation and the Scrub Queue (Chapter 1) -/

/-- A Frame Record as allocation service makes it (R21). -/
def FrameRecord.allocate (r : FrameRecord) (h : HostId) (label : Option (BitVec 16)) (inh : Bool) : FrameRecord :=
  { r with state := .held, owner := some h, access := (PerHost.all Level.none).set h .rw, label := label,
           inheritFlag := inh }

/-- Allocation service of a request (R21), with its completion. -/
def State.allocService (s : State) (h : HostId) (tag : BitVec 16) (count : Nat) (label : Option (BitVec 16))
    (inh : Bool) : State :=
  let taken := s.freeList.take count
  let s := { s with freeList := s.freeList.drop count, owned := s.owned.set h (s.owned.get h + count) }
  let s := taken.foldl (fun s f => s.updFrame f (·.allocate h label inh)) s
  s.complete h tag codeAlloc .ok (.frames taken)

/-- Allocation service over the entries of the Allocation Wait List, from the head, until one does not fit (R23). -/
def serveEntries : List WaitEntry → State → State
  | [], s => { s with waitList := [] }
  | e :: rest, s =>
    if e.count ≤ s.freeList.length then
      serveEntries rest
        ({ s with waitList := rest, waiting := s.waiting.set e.host 0 }.allocService e.host e.tag e.count e.label
          e.inheritFlag)
    else { s with waitList := e :: rest }

/-- Allocation service on the Allocation Wait List (R23). -/
def State.serveWaitList (s : State) : State := serveEntries s.waitList s

/-- The host's entry in the Allocation Wait List. -/
def State.waitEntry (s : State) (h : HostId) : Option WaitEntry := s.waitList.find? (fun e => decide (e.host = h))

/-- The head of the Allocation Wait List is the host's entry. -/
def State.waitsAtHead (s : State) (h : HostId) : Bool :=
  match s.waitList with
  | e :: _ => decide (e.host = h)
  | [] => false

/-- The host's entry removed, its waiting count 0 (R22, R24, R148). -/
def State.removeWaiting (s : State) (h : HostId) : State :=
  { s with waitList := s.waitList.filter (fun e => !decide (e.host = h)), waiting := s.waiting.set h 0 }

/-- A Frame Record as entry into SCRUBBING makes it (R5). -/
def FrameRecord.toScrubbing (r : FrameRecord) : FrameRecord :=
  { r with state := .scrubbing, owner := none, access := PerHost.all .none, closing := PerHost.all false,
           generation := r.generation + 1, label := none, inheritFlag := false }

/-- The owner's owned count lowered by one. -/
def State.lowerOwned (s : State) (owner : Option HostId) : State :=
  match owner with
  | some o => { s with owned := s.owned.set o (s.owned.get o - 1) }
  | none => s

/-- Entry of a frame into SCRUBBING from an owned state (R5). When it becomes the head of the Scrub Queue its scrub
begins at its first pool block (R17). -/
def State.enterScrubbing (s : State) (f : Nat) : State :=
  if (s.frame f).isOwned then
    let s := s.lowerOwned (s.frame f).owner
    let s := s.updFrame f (·.toScrubbing)
    { s with scrubPos := if s.scrubQueue.isEmpty then 0 else s.scrubPos, scrubQueue := s.scrubQueue ++ [f] }
  else s

/-! ### The recall machinery (Chapter 3) -/

/-- The lowest-numbered free Recall Record id (R44). -/
def State.freeRecordId (s : State) : Option Nat :=
  (List.range Config.recallCount).find? (fun id => (s.record id).isNone)

/-- The record on a frame that has a host as a target not yet DRAINED (R45: there is at most one). -/
def State.recallOf (s : State) (f : Nat) (h : HostId) : Option Nat :=
  (List.range Config.recallCount).find? (fun id =>
    match s.record id with
    | some r => decide (r.frame = f) && r.undrained h
    | none => false)

/-- The record with one target's phase set. -/
def RecallRecord.setPhase (r : RecallRecord) (h : HostId) (p : Phase) : RecallRecord :=
  { r with targets := r.targets.set h (some p) }

/-- After targets have left NOTICE: in a FREE record the owner's target follows the last other one out of NOTICE (R66),
and the deadline ceases with the last target in NOTICE (R47, R51). -/
def RecallRecord.follow (r : RecallRecord) : RecallRecord :=
  let r :=
    if r.purpose = .free ∧ r.targets.get r.requester = some .notice ∧ r.someOtherNotice r.requester = false then
      r.setPhase r.requester .closing
    else r
  { r with deadline := if r.someNotice then r.deadline else none }

/-- The chosen targets that are in NOTICE enter CLOSING (R47). -/
def RecallRecord.close (r : RecallRecord) (sel : HostId → Bool) : RecallRecord :=
  let targets := PerHost.make (fun k =>
    if r.targets.get k = some Phase.notice ∧ sel k = true then some Phase.closing else r.targets.get k)
  { r with targets := targets }.follow

/-- The drain checks a change of a record asks for: of each target newly in CLOSING but the owner's of a FREE record
(R47), and of that one when every other target is DRAINED (R66). -/
def RecallRecord.checksAsked (old new : RecallRecord) : List (HostId × Nat) :=
  (hosts.filter (fun k => decide (new.targets.get k = some .closing) && !decide (old.targets.get k = some .closing)
      && !new.isOwnerTarget k)).map (fun k => (k, new.frame))
  ++ (if new.ownerReady && !old.ownerReady then [(new.requester, new.frame)] else [])

/-- A record changes: the closing flags of the targets newly in CLOSING are set and the drain checks asked, in the same
event (R47). -/
def State.moveRecord (s : State) (id : Nat) (old new : RecallRecord) : State :=
  let s := s.setRecord id (some new)
  let s := s.updFrame new.frame (fun fr => { fr with closing := PerHost.make (fun k =>
    fr.closing.get k || (decide (new.targets.get k = some .closing) && !decide (old.targets.get k = some .closing))) })
  { s with drainChecks := s.drainChecks ++ RecallRecord.checksAsked old new }

/-- An id joins a recall set, which is kept rising (R12). -/
def joinRecallSet (id : Nat) (l : List Nat) : List Nat := if id ∈ l then l else insertRanked (fun x => x) id l

/-- A record is created with its targets' first phases (R44, R47, R57, R62, R65, R78); each non-owner target that enters
NOTICE receives a RECALL_NOTICE (R46). -/
def State.openRecord (s : State) (id : Nat) (r : RecallRecord) : State :=
  let s := s.updFrame r.frame (fun fr => { fr with recallSet := joinRecallSet id fr.recallSet })
  let s := s.moveRecord id { r with targets := PerHost.all none } r
  match r.deadline with
  | some d =>
    s.notifyAll (hosts.filter (fun k => decide (r.targets.get k = some .notice) && !r.isOwnerTarget k))
      (.recallNotice r.frame id (ticksRemaining s.tick d))
  | none => s

/-- The notice the drain of a target calls for (R49). DEDUCED (log entry 30): the drain through R48 of a departing host's own
RELEASE record posts GRANT_DROPPED to the frame's owner, since R69 and R149 discard the notice "since h is LEAVING", that
is, a notice addressed to h (R130). -/
def State.drainNotice (s : State) (r : RecallRecord) (h : HostId) : State :=
  match r.purpose with
  | .revoke => s.notify h (.revoked r.frame .revoke)
  | .free => if h = r.requester then s else s.notify h (.revoked r.frame .free)
  | .handover => s.notify h (.revoked r.frame .handover)
  | .release =>
    match (s.frame r.frame).owner with
    | some o => s.notify o (.grantDropped r.frame h .release)
    | none => s

/-- Completion of a Recall Record (R50, R68). -/
def State.completeRecord (s : State) (id : Nat) (r : RecallRecord) : State :=
  let s := s.setRecord id none
  let s := s.updFrame r.frame (fun fr => { fr with recallSet := fr.recallSet.filter (fun j => j != id) })
  let s := if r.purpose = .free then s.enterScrubbing r.frame else s
  s.complete r.requester r.tag r.purpose.code .ok .none

/-- The drain of a target (R49), with the record's completion when it was the last (R50). `quiet` is the drain of R69,
which posts no notice. -/
def State.drainTarget (s : State) (id : Nat) (r : RecallRecord) (h : HostId) (quiet : Bool) : State :=
  let new := (r.setPhase h .drained).follow
  let s := s.moveRecord id r new
  let s := s.updFrame r.frame (fun fr =>
    { fr with access := fr.access.set h .none, closing := fr.closing.set h false })
  let s := if quiet then s else s.drainNotice r h
  if new.allDrained then s.completeRecord id new else s

/-- The departing owner whose sweep has a forced freeing of the frame under way (R151, R154). -/
def State.forcedFreeingOf (s : State) (f : Nat) : Option HostId :=
  match (s.frame f).owner with
  | some o =>
    match s.departures.get o with
    | some d => if d.phase = .sweeping f true then some o else none
    | none => none
  | none => none

/-- The drain of an access that a departure sweep has closed, and the frame's entry into SCRUBBING when it was the last
(R154). -/
def State.drainSwept (s : State) (h : HostId) (f : Nat) (o : HostId) : State :=
  let s := s.updFrame f (fun fr => { fr with access := fr.access.set h .none, closing := fr.closing.set h false })
  let s := s.notify h (.revoked f .depart)
  if (s.frame f).holders (fun k => decide (k = o)) = [] then
    let s := s.enterScrubbing f
    let d := (s.departures.get o).map (fun d => { d with phase := .sweeping f false })
    { s with departures := s.departures.set o d }
  else s

/-- What the Map Controller does on a report that a host's ORT holds no entry for a frame (R48, R66). -/
def State.drainReport (s : State) (h : HostId) (f : Nat) : State :=
  if (s.frame f).closing.get h = false then s
  else
    match s.recallOf f h with
    | some id =>
      match s.record id with
      | some r =>
        if r.targets.get h ≠ some .closing ∨ (r.isOwnerTarget h ∧ r.othersDrained h = false) then s
        else s.drainTarget id r h false
      | none => s
    | none =>
      match s.forcedFreeingOf f with
      | some o => s.drainSwept h f o
      | none => s

/-- Upgrade of a Recall Record to FORCED (R58). -/
def State.upgradeRecord (s : State) (id : Nat) : State :=
  match s.record id with
  | some r => s.moveRecord id r ({ r with forced := true }.close (fun _ => true))
  | none => s

/-! ### Offers (Chapter 4) -/

/-- The lowest-numbered free slot of the Offer Table (R70). -/
def State.freeOfferSlot (s : State) : Option Nat :=
  (List.range Config.offerCount).find? (fun i => (s.offerSlot i).offer.isNone)

/-- The open offer a handle names (R70). -/
def State.openOffer (s : State) (hd : Handle) : Option Offer :=
  if hd.slot < Config.offerCount ∧ (s.offerSlot hd.slot).serial = hd.serial then (s.offerSlot hd.slot).offer else none

/-- Removal of an open offer (R71). -/
def State.removeOffer (s : State) (i : Nat) (o : Offer) : State :=
  (s.setOfferSlot i ⟨(s.offerSlot i).serial + 1, none⟩).updFrame o.frame (fun fr => { fr with offer := none })

/-- Removal of the offers of a departing host, each other party told, in ascending order of the frame (R84, R131). -/
def State.closeOffersOf (s : State) (h : HostId) : State :=
  let slots := (List.range Config.offerCount).filter (fun i =>
    match (s.offerSlot i).offer with
    | some o => decide (o.giver = h ∨ o.recipient = h)
    | none => false)
  let frameOf := fun i => match (s.offerSlot i).offer with
    | some o => o.frame
    | none => 0
  (sortRanked frameOf slots).foldl (fun s i =>
    match (s.offerSlot i).offer with
    | some o =>
      (s.removeOffer i o).notify (if o.giver = h then o.recipient else o.giver)
        (.offerClosed ⟨i, (s.offerSlot i).serial⟩ o.frame .partyLeft)
    | none => s) s

/-! ### Departures (Chapter 8) -/

/-- Every record a departing host requested is upgraded (R58, R148). -/
def State.upgradeRecordsOf (s : State) (h : HostId) : State :=
  (List.range Config.recallCount).foldl (fun s id =>
    match s.record id with
    | some r => if r.requester = h then s.upgradeRecord id else s
    | none => s) s

/-- The start of a departure (R147, R148; 08, section 8.3). Notices join a queue before completions of the same event
(R131), so the wait list is served last (log entry 12). -/
def State.startDeparture (s : State) (h : HostId) (cause : Cause) : State :=
  let served := s.waitsAtHead h
  let s := s.updPort h (·.startLeaving)
  let s := s.updUnit h (fun u => { u with windows := [], slots := [] })
  let s := { s with departures := s.departures.set h (some ⟨cause, .draining⟩) }
  let s := s.removeWaiting h
  let s := s.closeOffersOf h
  let s := s.upgradeRecordsOf h
  if served then s.serveWaitList else s

/-- The drains of the end of a drain phase on one frame: the host's target in a record, but for the owner's in a FREE
record that still waits on another target (R69, R150), or the host's access closed by another host's sweep (R150). -/
def State.settleDeparting (s : State) (h : HostId) (f : Nat) : State :=
  match s.recallOf f h with
  | some id =>
    match s.record id with
    | some r => if r.isOwnerTarget h ∧ r.othersDrained h = false then s else s.drainTarget id r h true
    | none => s
  | none =>
    match s.forcedFreeingOf f with
    | some o => if (s.frame f).closing.get h then s.drainSwept h f o else s
    | none => s

/-- The frames on which a host is a target not yet DRAINED, or at which a sweep has a forced freeing under way. -/
def State.framesToSettle (s : State) (h : HostId) : List Nat :=
  ((List.range Config.recallCount).filterMap (fun id =>
      match s.record id with
      | some r => if r.undrained h then some r.frame else none
      | none => none)
    ++ hosts.filterMap (fun j =>
      match s.departures.get j with
      | some ⟨_, .sweeping f true⟩ => some f
      | _ => none)).dedup

/-- The end of a departure's drain phase (R150). The spec gives the drains of this one event no order: they follow the
free order of Config (log entry 11). -/
def State.endDrainPhase (s : State) (h : HostId) (cause : Cause) : State :=
  let order := sortRanked (Config.freeRank s.fresh) (s.framesToSettle h)
  let s := { s with fresh := s.fresh + 1 }
  let s := order.foldl (fun s f => s.settleDeparting h f) s
  { s with departures := s.departures.set h (some ⟨cause, .sweeping 0 false⟩) }

/-- The heir of a frame of a departing host (R153). -/
def State.heirOf (s : State) (f : Nat) (h : HostId) : Option HostId :=
  hosts.find? (fun k => decide (k ≠ h) && s.isMember k && decide ((s.frame f).access.get k = .rw)
    && decide (s.owned.get k + s.waiting.get k < s.quotaOf k))

/-- The port state follows the link state at the end of a departure; a LEAVE that ends ATTACHED posts its completion as the
first record, taking no reservation (R129, R156). -/
def HostPort.endLeaving (p : HostPort) (cause : Cause) : HostPort :=
  if p.linkUp then
    match cause with
    | .leave tag =>
      { p with portState := .attached, events := p.events ++ [Event.completion tag codeLeave .ok .none] }.refreshHirq
    | .link => { p with portState := .attached }
  else { p with portState := .down, eventIe := false, faultIe := false, hirq := false }

/-- The end of a departure (R156): every other member is told, then the port state follows the link state. -/
def State.endDeparture (s : State) (h : HostId) (cause : Cause) : State :=
  let s := { s with departures := s.departures.set h none }
  let s := s.notifyAll (hosts.filter (fun k => !decide (k = h))) (.hostLeft h)
  s.updPort h (·.endLeaving cause)

/-- The sweep passes the frame at its position (R151). -/
def State.passSweep (s : State) (h : HostId) (cause : Cause) (position : Nat) : State :=
  if position + 1 < s.frameCount then
    { s with departures := s.departures.set h (some ⟨cause, .sweeping (position + 1) false⟩) }
  else s.endDeparture h cause

/-- Removal of a departing host's grant on another host's frame (R152). -/
def State.removeGrant (s : State) (f : Nat) (h : HostId) : State :=
  let s := s.updFrame f (fun fr => { fr with access := fr.access.set h .none })
  match (s.frame f).owner with
  | some o => s.notify o (.grantDropped f h .depart)
  | none => s

/-- Inheritance of a departing host's frame by an heir (R153). -/
def State.inheritFrame (s : State) (f : Nat) (h k : HostId) : State :=
  let s := s.updFrame f (fun fr => { fr with owner := some k, access := fr.access.set h .none })
  let s := s.lowerOwned (some h)
  let s := { s with owned := s.owned.set k (s.owned.get k + 1) }
  let s := s.notify k (.ownershipReceived f h (s.frame f).label)
  s.notifyAll ((s.frame f).holders (fun j => decide (j = k ∨ j = h))) (.ownerChanged f k .inherit)

/-- The step of a sweep that begins a forced freeing (R154). -/
def State.beginForcedFreeing (s : State) (f : Nat) (h : HostId) (cause : Cause) : State :=
  let others := (s.frame f).holders (fun k => decide (k = h))
  if others = [] then (s.enterScrubbing f).passSweep h cause f
  else
    let s := s.updFrame f (fun fr => { fr with closing := PerHost.make (fun k =>
      fr.closing.get k || decide (k ∈ others)) })
    { s with drainChecks := s.drainChecks ++ others.map (fun k => (k, f)),
             departures := s.departures.set h (some ⟨cause, .sweeping f true⟩) }

/-! ### The access check and admission (Chapters 5 and 6) -/

/-- Outcome of the access check (section 5.5). -/
inductive CheckResult where
  | notMember
  | fault (kind : FaultKind) (window : Option Nat) (frame : Option Nat)
  | pass (frame offset : Nat)
  deriving DecidableEq, Repr

/-- Size of a window in bytes: 64 KiB times 2^k (section 5.1). -/
def windowBytes (sizeCode : Nat) : Nat := Config.frameBytes * 2 ^ sizeCode

/-- The window contains the address (R95). -/
def Window.holds (w : Window) (a : Nat) : Bool := decide (w.base ≤ a ∧ a < w.base + windowBytes w.sizeCode)

/-- The valid window that contains an address (R95; R87: at most one). -/
def TranslationUnit.windowAt (u : TranslationUnit) (a : Nat) : Option Nat :=
  (List.range Config.windowCount).find? (fun i =>
    match u.window i with
    | some w => w.holds a
    | none => false)

/-- The tests on the resolved Frame Record: FRAME_STATE, NO_RIGHTS, RECALLED (R102). -/
def State.checkFrame (s : State) (h : HostId) (a : Access) (i f offset : Nat) : CheckResult :=
  let r := s.frame f
  if r.isOwned = false then .fault .frameState (some i) (some f)
  else if (r.access.get h).permits a = false then .fault .noRights (some i) (some f)
  else if r.closing.get h then .fault .recalled (some i) (some f)
  else .pass f offset

/-- Translation through a window and the tests after READ_ONLY_WINDOW (R95 to R97, R101). -/
def State.checkWindow (s : State) (h : HostId) (a : Access) (address i : Nat) (w : Window) : CheckResult :=
  let page := (address - w.base) / Config.frameBytes
  let offset := (address - w.base) % Config.frameBytes
  match w.map with
  | .direct first => s.checkFrame h a i (first + page) offset
  | .mapped slotBase =>
    match (s.unit h).slot (slotBase + page) with
    | none => .fault .emptySlot (some i) none
    | some sl =>
      if sl.generation ≠ (s.frame sl.frame).generation then .fault .staleSlot (some i) (some sl.frame)
      else s.checkFrame h a i sl.frame offset

/-- The access check of a data request of a host (R98). -/
def State.accessCheck (s : State) (h : HostId) (a : Access) (address : Nat) : CheckResult :=
  if s.isMember h = false then .notMember
  else
    match (s.unit h).windowAt address with
    | none => .fault .noWindow none none
    | some i =>
      match (s.unit h).window i with
      | none => .fault .noWindow none none
      | some w =>
        if a.isWrite ∧ w.writable = false then .fault .readOnlyWindow (some i) none
        else s.checkWindow h a address i w

/-- The ORT holds an entry under a tag. -/
def TranslationUnit.holdsTag (u : TranslationUnit) (tag : Fin 32) : Bool := u.ort.any (fun e => decide (e.tag = tag))

/-- The ORT holds an entry for a frame, whatever its phase (R120). -/
def TranslationUnit.holdsFrame (u : TranslationUnit) (f : Nat) : Bool := u.ort.any (fun e => decide (e.frame = f))

/-- The tags of the credits the host holds: those the ORT does not hold (R108). -/
def TranslationUnit.creditTags (u : TranslationUnit) : List (Fin 32) :=
  (List.finRange 32).filter (fun t => !u.holdsTag t)

/-- What is sent for a request that failed the access check: a read completion with ACCESS_FAULT and FFh bytes, or a
write's credit return (R103, R109). -/
def failedReply (r : DataRequest) : LinkMessage :=
  match r.access with
  | .read => .readCompletion r.tag .accessFault (List.replicate (requestLength r) 0xFF)
  | .write _ => .creditReturn r.tag

/-- The fault record of a failed request. -/
def requestFault (r : DataRequest) (kind : FaultKind) (window frame : Option Nat) : FaultRecord :=
  ⟨kind, r.access.isWrite, requestAddress r, requestLength r, window, frame, 0⟩

/-- Admission of a request into the ORT (R111). -/
def admittedEntry (r : DataRequest) (frame offset : Nat) : OrtEntry :=
  ⟨r.tag, r.access, requestAddress r, frame, offset, requestLength r, false⟩

/-! ### The pool (Chapter 6) -/

/-- The byte of pool memory at an address. A byte of a pool block not written since the last device reset is a free value
(R126; log entry 9). -/
def State.poolByte (s : State) (a : Nat) : Byte :=
  match Table.get BlockStatus.unknown s.blocks (a / Config.blockBytes) with
  | .unknown => Config.unknownByte s.resetCount a
  | .known _ => Table.get 0 s.mem a

/-- The ECC condition of a pool block (section 6.4; log entry 9). -/
def State.blockError (s : State) (b : Nat) : BlockError :=
  match Table.get BlockStatus.unknown s.blocks b with
  | .unknown => Config.unknownBlockError s.resetCount b
  | .known e => e

/-- An uncorrectable error that has arisen in a pool block stays with its contents until the block is written (R117; log
entry 10). A corrected error changes no state (R116). -/
def State.noteError (s : State) (b : Nat) (e : BlockError) : State :=
  match Table.get BlockStatus.unknown s.blocks b with
  | .unknown => s
  | .known _ =>
    if e = .uncorrectable then { s with blocks := Table.set BlockStatus.unknown s.blocks b (.known .uncorrectable) }
    else s

/-- A whole pool block written with fresh ECC (section 6.4). -/
def State.writeBlock (s : State) (b : Nat) (g : Nat → Byte) : State :=
  { s with
    mem := (List.range Config.blockBytes).foldl (fun m i => Table.set 0 m (b * Config.blockBytes + i) (g i)) s.mem
    blocks := Table.set BlockStatus.unknown s.blocks b (.known .none) }

/-- The pool blocks an entry touches, one or two, by number in the pool (R107, R116). -/
def OrtEntry.poolBlocks (e : OrtEntry) : List Nat :=
  let first := e.frame * Config.blocksPerFrame + e.offset / Config.blockBytes
  let last := e.frame * Config.blocksPerFrame + (e.offset + e.length - 1) / Config.blockBytes
  if first = last then [first] else [first, last]

/-- The pool address of the entry's first byte (R111). -/
def OrtEntry.poolAddress (e : OrtEntry) : Nat := e.frame * Config.frameBytes + e.offset

/-- The byte the entry's write enables at a pool address (R107, R117). -/
def OrtEntry.enabledByte (e : OrtEntry) (a : Nat) : Option Byte :=
  match e.access with
  | .read => none
  | .write bytes =>
    if e.poolAddress ≤ a then
      match bytes[a - e.poolAddress]? with
      | some (v, true) => some v
      | _ => none
    else none

/-- The number of bytes of a pool block that the entry's write enables (R117). -/
def OrtEntry.enabledIn (e : OrtEntry) (b : Nat) : Nat :=
  ((List.range Config.blockBytes).filter (fun i => (e.enabledByte (b * Config.blockBytes + i)).isSome)).length

/-- The pool block is written partially: some of its mask flags are set and some clear (R117). -/
def OrtEntry.partialIn (e : OrtEntry) (b : Nat) : Bool :=
  decide (0 < e.enabledIn b ∧ e.enabledIn b < Config.blockBytes)

/-- The bytes of an entry's read (R116). -/
def State.entryBytes (s : State) (e : OrtEntry) : List Byte :=
  (List.range e.length).map (fun i => s.poolByte (e.poolAddress + i))

/-- The write of an entry into one pool block: full, merged, or none (R117). -/
def State.writeEntryBlock (s : State) (e : OrtEntry) (b : Nat) : State :=
  if e.enabledIn b = 0 then s
  else s.writeBlock b (fun i =>
    (e.enabledByte (b * Config.blockBytes + i)).getD (s.poolByte (b * Config.blockBytes + i)))

/-- The uncorrectable errors that have arisen are noted in the pool blocks that are read, those of the list. -/
def State.noteErrors (s : State) (l : List (Nat × BlockError)) : State :=
  l.foldl (fun s be => s.noteError be.1 be.2) s

/-- Some pool block of the list, with the error that has arisen in it, is uncorrectable. -/
def State.anyUncorrectable (s : State) (l : List (Nat × BlockError)) : Bool :=
  l.any (fun be => decide ((s.blockError be.1).worse be.2 = .uncorrectable))

/-- A damage report (R118): the frame's damaged flag is set and a POOL_DATA fault is reported. -/
def State.damageReport (s : State) (h : HostId) (e : OrtEntry) : State :=
  (s.updFrame e.frame (fun fr => { fr with damaged := true })).updPort h
    (·.reportFault ⟨.poolData, e.access.isWrite, e.address, e.length, none, some e.frame, 0⟩)

/-- Retirement of an entry (R119): it leaves the ORT, its message is sent with the link up, and with the closing flag set
on its frame the retirement is reported to the Map Controller (R48). -/
def State.retire (s : State) (h : HostId) (e : OrtEntry) (m : LinkMessage) : State :=
  let s := s.updUnit h (fun u => { u with ort := u.ort.filter (fun x => !decide (x.tag = e.tag)) })
  let s := s.send h m
  if (s.frame e.frame).closing.get h ∧ (s.unit h).holdsFrame e.frame = false then s.drainReport h e.frame else s

/-- The entry of a port that the Pool Controller is performing. -/
def State.inPoolEntry (s : State) (h : HostId) : Option OrtEntry := (s.unit h).ort.find? (fun e => e.inPool)

/-- Translation Unit h presents an entry: its oldest in phase WAITING (R112). -/
def State.presents (s : State) (h : HostId) : Bool := (s.unit h).ort.any (fun e => !e.inPool)

/-- The scrubber is active (R17). -/
def State.scrubberActive (s : State) : Bool := decide (s.load ≠ .loading) && !s.scrubQueue.isEmpty

/-- The oldest WAITING entry becomes IN_POOL (R113). -/
def grantOldest : List OrtEntry → List OrtEntry
  | [] => []
  | e :: rest => if e.inPool then e :: grantOldest rest else { e with inPool := true } :: rest

/-- The end of a frame's scrub (R18). -/
def State.endScrub (s : State) (f : Nat) (rest : List Nat) : State :=
  let s := { s with scrubQueue := rest, scrubPos := 0 }
  let s := s.updFrame f (fun fr => { fr with state := .free, damaged := false })
  let s := { s with freeList := s.freeList ++ [f] }
  s.serveWaitList

/-! ### The configuration load (Chapter 9) -/

/-- The configuration comes into force (R163, R2): the Frame Table takes its records, the Scrub Queue every frame. -/
def State.enterConfiguration (s : State) (l : LoadState) (c : Configuration) : State :=
  { s with load := l, config := some c, promSelect := false, frames := [], scrubQueue := List.range c.frames,
           scrubPos := 0 }

end Sys2Proof.Machine
end

