-- ==== Sys2Proof/Machine/AccessPath.lean ====
section
/-! DEFINITION. Chapter 6: the arrival of a data request, the pool arbiter's grants, and the ends of the accesses the Pool
Controller performs. -/

namespace Sys2Proof.Machine

/-- Handling of a request that failed the access check (R103): its credit returns at once, and with a fault kind a record
is reported to the host's Fault Log. -/
def State.failRequest (s : State) (h : HostId) (r : DataRequest) (fault : Option FaultRecord) : State :=
  let s := match fault with
    | some x => s.updPort h (·.reportFault x)
    | none => s
  s.send h (failedReply r)

/-- The arrival event of a data request: the tag test, the access check, then failure or admission (R110). -/
def State.arrival (s : State) (h : HostId) (r : DataRequest) : State :=
  if (s.unit h).holdsTag r.tag then
    s.updPort h (·.reportFault (requestFault r .creditViolation none none))
  else
    match s.accessCheck h r.access (requestAddress r) with
    | .notMember => s.failRequest h r none
    | .fault kind window frame => s.failRequest h r (some (requestFault r kind window frame))
    | .pass frame offset => s.updUnit h (fun u => { u with ort := u.ort ++ [admittedEntry r frame offset] })

/-- DATA_REQUEST_ARRIVAL (R110). A request that the link's format cannot express is not sent (R107; log entry 21). -/
def execDataRequestArrival (h : HostId) (r : DataRequest) (s : State) : Host.Outcome State Fault Refusal :=
  if s.delivers h ∧ requestExpressible r then .next (s.arrival h r) else .next s

/-- A grant to the scrubber (R113). -/
def State.grantScrubber (s : State) : State := { s with job := .scrub, turn := 0 }

/-- A grant to a port's oldest WAITING entry (R113). -/
def State.grantPort (s : State) (h : HostId) : State :=
  { s.updUnit h (fun u => { u with ort := grantOldest u.ort }) with
    job := .port h
    portPointer := h + 1
    turn := if s.scrubberActive then s.turn + 1 else s.turn }

/-- The port the arbiter would grant: the first presenting one from the port pointer on (R113). -/
def State.nextPort (s : State) : Option HostId := (searchOrder s.portPointer).find? s.presents

/-- POOL_GRANT (R113): the three cases, in order. Without an idle Pool Controller or a presenting requester there is no
grant. -/
def execPoolGrant (s : State) : Host.Outcome State Fault Refusal :=
  if s.job = .idle then
    if s.scrubberActive ∧ s.turn = 16 then .next s.grantScrubber
    else
      match s.nextPort with
      | some h => .next (s.grantPort h)
      | none => if s.scrubberActive then .next s.grantScrubber else .next s
  else .next s

/-- The end of the performance of a scrubber write (R115, R17, R18). -/
def State.scrubWriteEnd (s : State) : State :=
  match s.scrubQueue with
  | [] => { s with job := .idle }
  | f :: rest =>
    let s := s.writeBlock (f * Config.blocksPerFrame + s.scrubPos) (fun _ => 0)
    let s := { s with job := .idle }
    if s.scrubPos + 1 < Config.blocksPerFrame then { s with scrubPos := s.scrubPos + 1 }
    else s.endScrub f rest

/-- SCRUB_WRITE_PERFORMED (R115). -/
def execScrubWritePerformed (s : State) : Host.Outcome State Fault Refusal :=
  if s.job = .scrub then .next s.scrubWriteEnd else .next s

/-- The end of a read (R116, R118, R119). -/
def State.readEnd (s : State) (h : HostId) (e : OrtEntry) (e0 e1 : BlockError) : State :=
  let found := e.poolBlocks.zip [e0, e1]
  if s.anyUncorrectable found then
    let s := (s.noteErrors found).damageReport h e
    { s with job := .idle }.retire h e (.readCompletion e.tag .dataError (List.replicate e.length 0xFF))
  else
    let data := s.entryBytes e
    { s.noteErrors found with job := .idle }.retire h e (.readCompletion e.tag .ok data)

/-- READ_PERFORMED (R116). -/
def execReadPerformed (e0 e1 : BlockError) (s : State) : Host.Outcome State Fault Refusal :=
  match s.job with
  | .port h =>
    match s.inPoolEntry h with
    | some e => if e.access.isWrite then .next s else .next (s.readEnd h e e0 e1)
    | none => .next s
  | _ => .next s

/-- The end of a write (R117, R118, R119). -/
def State.writeEnd (s : State) (h : HostId) (e : OrtEntry) (e0 e1 : BlockError) : State :=
  let merged := (e.poolBlocks.zip [e0, e1]).filter (fun be => e.partialIn be.1)
  if s.anyUncorrectable merged then
    let s := (s.noteErrors merged).damageReport h e
    { s with job := .idle }.retire h e (.creditReturn e.tag)
  else
    let s := e.poolBlocks.foldl (fun s b => s.writeEntryBlock e b) s
    { s with job := .idle }.retire h e (.creditReturn e.tag)

/-- WRITE_PERFORMED (R117). -/
def execWritePerformed (e0 e1 : BlockError) (s : State) : Host.Outcome State Fault Refusal :=
  match s.job with
  | .port h =>
    match s.inPoolEntry h with
    | some e => if e.access.isWrite then .next (s.writeEnd h e e0 e1) else .next s
    | none => .next s
  | _ => .next s

end Sys2Proof.Machine
end

