-- ==== Sys2Proof/Machine/Aperture.lean ====
section
/-! DEFINITION. Chapter 10: what a control read shows. The byte layouts of event records and fault records and of the
readable registers, as functions of State; a control read other than of a pop register changes no state (R167; log
entry 19). -/

namespace Sys2Proof.Machine

/-- A list of bytes brought to `n` bytes, filled with 0. -/
def padTo (n : Nat) (l : List Byte) : List Byte := (l ++ List.replicate n 0).take n

/-- One byte of a number. -/
def nat8 (v : Nat) : Byte := BitVec.ofNat 8 v

/-- A flag as a bit of weight `w`. -/
def bitOf (w : Nat) (b : Bool) : Nat := if b then w else 0

/-- The number of a host in a record; FFh when absent (section 10.6). -/
def hostByte (h : Option HostId) : Byte :=
  match h with
  | some h => nat8 h.val
  | none => 0xFF

/-! ### Codes (sections 10.2, 10.5, 10.6) -/

def Result.code : Result → Nat
  | .ok => 0
  | .badCommand => 1
  | .badArgument => 2
  | .notOwner => 3
  | .isOwner => 4
  | .noAccess => 5
  | .wrongState => 6
  | .quota => 7
  | .noFrames => 8
  | .busy => 9
  | .noRecord => 10
  | .late => 11
  | .gone => 12
  | .overlap => 13
  | .cancelled => 14
  | .notFound => 15
  | .ownerLeaving => 16
  | .hostAbsent => 17

def FrameState.code : FrameState → Nat
  | .free => 0
  | .held => 1
  | .freeing => 2
  | .scrubbing => 3

def RevokePurpose.code : RevokePurpose → Nat
  | .revoke => 1
  | .free => 2
  | .handover => 3
  | .depart => 4

def DropReason.code : DropReason → Nat
  | .release => 1
  | .depart => 2

def CloseReason.code : CloseReason → Nat
  | .accepted => 1
  | .declined => 2
  | .withdrawn => 3
  | .expired => 4
  | .partyLeft => 5

def OwnerCause.code : OwnerCause → Nat
  | .offer => 1
  | .inherit => 2

def FaultKind.code : FaultKind → Nat
  | .noWindow => 1
  | .readOnlyWindow => 2
  | .emptySlot => 3
  | .staleSlot => 4
  | .frameState => 5
  | .noRights => 6
  | .recalled => 7
  | .creditViolation => 8
  | .poolData => 9

def LoadState.code : LoadState → Nat
  | .loading => 0
  | .loaded => 1
  | .defaulted => 2

def PortState.code : PortState → Nat
  | .down => 0
  | .attached => 1
  | .member => 2
  | .leaving => 3

def SubmitStatus.code : SubmitStatus → Nat
  | .none => 0
  | .accepted => 1
  | .queueFull => 2
  | .notMember => 3

def JoinStatus.code : JoinStatus → Nat
  | .none => 0
  | .joined => 1
  | .notReady => 2
  | .hostDisabled => 3
  | .notAttached => 4

/-- Kind code of an event record; NONE is 0 (section 10.6). -/
def Event.kindCode : Event → Nat
  | .completion .. => 1
  | .granted .. => 2
  | .recallNotice .. => 3
  | .revoked .. => 4
  | .grantDropped .. => 5
  | .offerReceived .. => 6
  | .offerClosed .. => 7
  | .ownerChanged .. => 8
  | .ownershipReceived .. => 9
  | .hostJoined .. => 10
  | .hostLeft .. => 11

/-! ### Event records (section 10.6, R172) -/

/-- A label's two bytes; 0 when it is absent (R172). -/
def labelBytes (l : Option (BitVec 16)) : List Byte := leBytes (l.getD 0).toNat 2

/-- A handle's two bytes. -/
def handleBytes (h : Handle) : List Byte := [nat8 h.slot, h.serial]

/-- Bytes 8 to 25 of a QUERY_FRAME completion. -/
def snapshotBytes (f : Nat) (r : FrameRecord) : List Byte :=
  [nat8 r.state.code, hostByte r.owner,
   nat8 (r.access.h0.code + 4 * r.access.h1.code + 16 * r.access.h2.code + 64 * r.access.h3.code),
   nat8 (bitOf 1 r.closing.h0 + bitOf 2 r.closing.h1 + bitOf 4 r.closing.h2 + bitOf 8 r.closing.h3
     + bitOf 16 r.inheritFlag + bitOf 32 r.damaged + bitOf 64 r.label.isSome + bitOf 128 r.offer.isSome),
   r.generation, 0]
  ++ labelBytes r.label ++ handleBytes (r.offer.getD ⟨0, 0⟩)
  ++ [nat8 r.recallSet.length] ++ padTo 4 (r.recallSet.map nat8) ++ [0] ++ leBytes f 2

/-- Bytes 8 to 25 of a QUERY_HOST completion. -/
def figuresBytes (g : HostFigures) : List Byte :=
  leBytes g.owned 2 ++ leBytes g.quota 2 ++ [nat8 g.waiting]
  ++ [nat8 (bitOf 1 g.members.h0 + bitOf 2 g.members.h1 + bitOf 4 g.members.h2 + bitOf 8 g.members.h3)]
  ++ leBytes g.freeLength 2 ++ leBytes g.scrubLength 2 ++ [nat8 g.load.code, 0]
  ++ leBytes g.frames 2 ++ leBytes g.grace 2 ++ leBytes g.lifetime 2

/-- The payload of a completion from byte 8 (section 10.6). -/
def Payload.bytes : Payload → List Byte
  | .none => []
  | .frames taken => [nat8 taken.length, 0] ++ (taken.map (fun f => leBytes f 2)).flatten
  | .freeLength n => leBytes n 2
  | .handle h => handleBytes h
  | .snapshot f r => snapshotBytes f r
  | .figures g => figuresBytes g

/-- The bytes of an event record before they are filled with 0 to 32 (section 10.6). -/
def Event.fields : Event → List Byte
  | .completion tag code result payload =>
    [nat8 1, 0] ++ leBytes tag.toNat 2 ++ [code, nat8 result.code, 0, 0] ++ payload.bytes
  | .granted f owner level label =>
    [nat8 2, nat8 (bitOf 1 label.isSome)] ++ leBytes f 2 ++ [nat8 owner.val, nat8 level.code] ++ labelBytes label
  | .recallNotice f id ticks => [nat8 3, 0] ++ leBytes f 2 ++ [nat8 id, 0] ++ leBytes ticks 2
  | .revoked f purpose => [nat8 4, 0] ++ leBytes f 2 ++ [nat8 purpose.code]
  | .grantDropped f host reason => [nat8 5, 0] ++ leBytes f 2 ++ [nat8 host.val, nat8 reason.code]
  | .offerReceived h f giver residual label ticks =>
    [nat8 6, nat8 (bitOf 1 label.isSome)] ++ leBytes f 2 ++ handleBytes h ++ [nat8 giver.val, nat8 residual.code]
      ++ labelBytes label ++ leBytes ticks 2
  | .offerClosed h f reason => [nat8 7, 0] ++ leBytes f 2 ++ handleBytes h ++ [nat8 reason.code]
  | .ownerChanged f owner cause => [nat8 8, 0] ++ leBytes f 2 ++ [nat8 owner.val, nat8 cause.code]
  | .ownershipReceived f former label =>
    [nat8 9, nat8 (bitOf 1 label.isSome)] ++ leBytes f 2 ++ [nat8 former.val, nat8 2] ++ labelBytes label
  | .hostJoined host => [nat8 10, 0, 0, 0, nat8 host.val]
  | .hostLeft host => [nat8 11, 0, 0, 0, nat8 host.val]

/-- The 32 bytes of an event record (R172). -/
def Event.bytes (e : Event) : List Byte := padTo 32 e.fields

/-- The 32 bytes of a fault record (section 10.6, R173). -/
def FaultRecord.bytes (r : FaultRecord) : List Byte :=
  padTo 32 ([nat8 r.kind.code, nat8 (bitOf 1 r.isWrite + bitOf 2 r.window.isSome + bitOf 4 r.frame.isSome),
      nat8 (r.window.getD 0), nat8 r.suppressed]
    ++ leBytes (r.frame.getD 0) 2 ++ leBytes r.length 2 ++ leBytes r.address 8)

/-! ### Registers (sections 10.1 and 10.2) -/

/-- IDENT (section 10.2). -/
def identBytes (h : HostId) : List Byte := [0x16, 0x04, nat8 h.val, 0]

/-- STATUS (section 10.2, R168). -/
def State.statusBytes (s : State) (h : HostId) : List Byte :=
  let p := s.port h
  [nat8 p.portState.code, nat8 s.load.code, nat8 p.queue.length, nat8 p.events.length, nat8 p.reserved,
   nat8 (bitOf 1 p.noticeLost + bitOf 2 p.hirq), nat8 p.faults.length,
   nat8 (p.submitStatus.code + 16 * p.joinStatus.code)]

/-- INT_ENABLE as it reads (R169). -/
def State.intEnableBytes (s : State) (h : HostId) : List Byte :=
  [nat8 (bitOf 1 (s.port h).eventIe + bitOf 2 (s.port h).faultIe)]

/-- The event window: the head record, or a record of kind NONE with every byte 0 (R133, R170). -/
def State.eventWindowBytes (s : State) (h : HostId) : List Byte :=
  match (s.port h).events with
  | e :: _ => e.bytes
  | [] => []

/-- The fault window (R137, R170). -/
def State.faultWindowBytes (s : State) (h : HostId) : List Byte :=
  match (s.port h).faults with
  | r :: _ => r.bytes
  | [] => []

/-- The 32 bytes of the aperture region at an offset, as a control read that has no effect finds them (R167). The pop
registers and the write-only registers read as 0 here: the reads of EVENT_POP and FAULT_POP are commands of their own. -/
def State.regionBytes (s : State) (h : HostId) (region : Nat) : List Byte :=
  padTo 32 (
    if region = 0x000 then identBytes h
    else if region = 0x020 then s.statusBytes h
    else if region = 0x040 then leBytes s.tick.toNat 4
    else if region = regIntEnable then s.intEnableBytes h
    else if region = regStaging then (s.port h).staging
    else if region = regEventWindow then s.eventWindowBytes h
    else if region = regFaultWindow then s.faultWindowBytes h
    else [])

/-- The answer to a control read of a port whose link is up, other than a read that pops (R167). DESIGN CHOICE (log entry
19): a read that starts at byte 1 to 3 of a pop register pops nothing and finds 0 there. -/
def State.controlRead (s : State) (h : HostId) (offset len : Nat) : LinkMessage :=
  if accessLegal offset len then
    .controlRead .ok (((s.regionBytes h (32 * (offset / 32))).drop (offset % 32)).take len)
  else .controlRead .accessFault (List.replicate len 0xFF)

end Sys2Proof.Machine
end

