-- ==== Sys2Proof/Machine/ControlAccess.lean ====
section
/-! DEFINITION. Control accesses of a port that have an effect (R167, R169, R170): STAGING, SUBMIT, JOIN, EVENT_POP,
FAULT_POP, NOTICE_LOST_CLEAR, INT_ENABLE, and every other control write. A control access reaches a port only while its
link delivers (log entry 2). -/

namespace Sys2Proof.Machine

/-- STAGING: a control write to the staging area changes the bytes it enables (R28). -/
def execStaging (h : HostId) (w : ControlWrite) (s : State) : Host.Outcome State Fault Refusal :=
  if s.delivers h then .next (s.updPort h (fun p => { p with staging := stagingAfter w p.staging })) else .next s

/-- A submission at a port (R29). -/
def HostPort.submitted (p : HostPort) : HostPort :=
  if p.portState = .member then
    if p.queue.length < Config.commandQueueDepth then
      { p with queue := p.queue ++ [p.staging], submitStatus := .accepted }
    else { p with submitStatus := .queueFull }
  else { p with submitStatus := .notMember }

/-- SUBMIT: a control write that enables at least one byte of SUBMIT is one submission (R29, R169). -/
def execSubmit (h : HostId) (w : ControlWrite) (s : State) : Host.Outcome State Fault Refusal :=
  if s.delivers h ∧ w.touches regSubmit 4 then .next (s.updPort h (·.submitted)) else .next s

/-- The decision of a join request (R145). -/
def State.joinOutcome (s : State) (h : HostId) : JoinStatus :=
  match (s.port h).portState with
  | .attached =>
    match s.load, s.config with
    | .loading, _ => .notReady
    | _, some c => if c.enabled.get h then .joined else .hostDisabled
    | _, none => .notReady
  | _ => .notAttached

/-- A join request (R145), with the membership and the notices of an accepted one (R146). -/
def State.joinRequest (s : State) (h : HostId) : State :=
  if s.joinOutcome h = .joined then
    (s.updPort h (fun p => { p with portState := .member, joinStatus := .joined })).notifyAll
      (hosts.filter (fun k => !decide (k = h))) (.hostJoined h)
  else s.updPort h (fun p => { p with joinStatus := s.joinOutcome h })

/-- JOIN: a control write that enables at least one byte of JOIN is one join request (R145, R169). -/
def execJoin (h : HostId) (w : ControlWrite) (s : State) : Host.Outcome State Fault Refusal :=
  if s.delivers h ∧ w.touches regJoin 4 then .next (s.joinRequest h) else .next s

/-- The data of a read of a pop register: the kind code in byte 0, the other bytes 0 (R170). -/
def popData (kind len : Nat) : List Byte := BitVec.ofNat 8 kind :: List.replicate (len - 1) 0

/-- The answer to a malformed control read (R167). -/
def malformedRead (len : Nat) : LinkMessage := .controlRead .accessFault (List.replicate len 0xFF)

/-- A read of EVENT_POP at a port: the head record leaves, its kind is returned (R133, R170). -/
def HostPort.popEvent (p : HostPort) (len : Nat) : HostPort :=
  match p.events with
  | [] => p.send (.controlRead .ok (popData 0 len))
  | e :: rest => { p with events := rest }.refreshHirq.send (.controlRead .ok (popData e.kindCode len))

/-- EVENT_POP (R133); a read of an illegal length is malformed and removes nothing (R167). DESIGN CHOICE (log entry 19): the
read that pops is one that starts at the register's first byte; the spec states no alignment of a read's offset. -/
def execEventPop (h : HostId) (len : Nat) (s : State) : Host.Outcome State Fault Refusal :=
  if s.delivers h then
    if accessLegal regEventPop len then .next (s.updPort h (·.popEvent len))
    else .next (s.send h (malformedRead len))
  else .next s

/-- A read of FAULT_POP at a port: the head record leaves, its kind is returned (R137, R170). -/
def HostPort.popFault (p : HostPort) (len : Nat) : HostPort :=
  match p.faults with
  | [] => p.send (.controlRead .ok (popData 0 len))
  | r :: rest => { p with faults := rest }.refreshHirq.send (.controlRead .ok (popData r.kind.code len))

/-- FAULT_POP (R137); a read of an illegal length is malformed and removes nothing (R167). DESIGN CHOICE (log entry 19): the
read that pops is one that starts at the register's first byte; the spec states no alignment of a read's offset. -/
def execFaultPop (h : HostId) (len : Nat) (s : State) : Host.Outcome State Fault Refusal :=
  if s.delivers h then
    if accessLegal regFaultPop len then .next (s.updPort h (·.popFault len))
    else .next (s.send h (malformedRead len))
  else .next s

/-- A write to NOTICE_LOST_CLEAR at a port: a 1 in bit 0 clears NOTICE_LOST (R132, R169). -/
def HostPort.clearNoticeLost (p : HostPort) (v : Option Byte) : HostPort :=
  match v with
  | some v => if v.getLsbD 0 then { p with noticeLost := false }.refreshHirq else p
  | none => p

/-- NOTICE_LOST_CLEAR (R132, R169). -/
def execNoticeLostClear (h : HostId) (w : ControlWrite) (s : State) : Host.Outcome State Fault Refusal :=
  if s.delivers h then .next (s.updPort h (·.clearNoticeLost (w.byteAt regNoticeLostClear))) else .next s

/-- A write to INT_ENABLE at a port: bits 0 and 1 of an enabled byte 0 set the two enables (R138, R169). -/
def HostPort.setEnables (p : HostPort) (v : Option Byte) : HostPort :=
  match v with
  | some v => { p with eventIe := v.getLsbD 0, faultIe := v.getLsbD 1 }.refreshHirq
  | none => p

/-- INT_ENABLE (R138, R169). -/
def execIntEnable (h : HostId) (w : ControlWrite) (s : State) : Host.Outcome State Fault Refusal :=
  if s.delivers h then .next (s.updPort h (·.setEnables (w.byteAt regIntEnable))) else .next s

/-- CONTROL_WRITE: any other control write, or a malformed one, changes no state (R133, R137, R167, R169, R170). -/
def execControlWrite (_h : HostId) (_w : ControlWrite) (s : State) : Host.Outcome State Fault Refusal := .next s

end Sys2Proof.Machine
end

