-- ==== Sys2Proof/Machine/FrameCommands.lean ====
section
/-! DEFINITION. Chapter 1's commands: ALLOC, CANCEL_ALLOC, SET_LABEL, SET_INHERIT, QUERY_FRAME. -/

namespace Sys2Proof.Machine

/-- The first case of R20 that applies. -/
inductive AllocCase where
  | refuse (r : Result)
  | serve
  | wait
  | noFrames
  deriving DecidableEq, Repr

def State.allocCase (s : State) (h : HostId) (d : Desc) : AllocCase :=
  if d.count = 0 ∨ 8 < d.count then .refuse .badArgument
  else if s.quotaOf h < s.owned.get h + s.waiting.get h + d.count then .refuse .quota
  else if s.waitList = [] ∧ d.count ≤ s.freeList.length then .serve
  else if d.wait ∧ (s.waitEntry h).isSome then .refuse .busy
  else if d.wait then .wait
  else .noFrames

/-- An ALLOC joins the tail of the Allocation Wait List (R20, R22). -/
def State.joinWaitList (s : State) (h : HostId) (d : Desc) : State :=
  { s with waitList := s.waitList ++ [⟨h, d.tag, d.count, d.labelOf, d.inheritFlag⟩],
           waiting := s.waiting.set h d.count }

/-- The effect of an ALLOC (R20). -/
def allocEffect (h : HostId) (d : Desc) (s : State) : State :=
  match s.allocCase h d with
  | .refuse r => s.finish h d r
  | .serve => s.allocService h d.tag d.count d.labelOf d.inheritFlag
  | .wait => s.joinWaitList h d
  | .noFrames => s.complete h d.tag d.code .noFrames (.freeLength s.freeList.length)

/-- ALLOC (R20). -/
def execAlloc (s : State) : Host.Outcome State Fault Refusal := taking (fun c => c == codeAlloc) allocEffect s

/-- The effect of a CANCEL_ALLOC (R24). -/
def cancelAllocEffect (h : HostId) (d : Desc) (s : State) : State :=
  match s.waitEntry h with
  | some e =>
    if e.tag = d.tag then
      let head := s.waitsAtHead h
      let s := s.removeWaiting h
      let s := s.complete h e.tag codeAlloc .cancelled .none
      let s := s.finish h d .ok
      if head then s.serveWaitList else s
    else s.finish h d .notFound
  | none => s.finish h d .notFound

/-- CANCEL_ALLOC (R24). -/
def execCancelAlloc (s : State) : Host.Outcome State Fault Refusal :=
  taking (fun c => c == codeCancelAlloc) cancelAllocEffect s

/-- The checks of SET_LABEL and SET_INHERIT, in order (R25, R26). -/
def State.ownerCheck (s : State) (h : HostId) (f : Nat) : Result :=
  if s.frameCount ≤ f then .badArgument
  else if s.ownerLeaving f then .ownerLeaving
  else if (s.frame f).owner ≠ some h then .notOwner
  else if (s.frame f).state ≠ .held then .wrongState
  else .ok

/-- The effect of a SET_LABEL (R25). -/
def setLabelEffect (h : HostId) (d : Desc) (s : State) : State :=
  match s.ownerCheck h d.frame with
  | .ok => (s.updFrame d.frame (fun fr => { fr with label := d.labelOf })).finish h d .ok
  | r => s.finish h d r

/-- SET_LABEL (R25). -/
def execSetLabel (s : State) : Host.Outcome State Fault Refusal :=
  taking (fun c => c == codeSetLabel) setLabelEffect s

/-- The effect of a SET_INHERIT (R26). -/
def setInheritEffect (h : HostId) (d : Desc) (s : State) : State :=
  match s.ownerCheck h d.frame with
  | .ok => (s.updFrame d.frame (fun fr => { fr with inheritFlag := d.inheritFlag })).finish h d .ok
  | r => s.finish h d r

/-- SET_INHERIT (R26). -/
def execSetInherit (s : State) : Host.Outcome State Fault Refusal :=
  taking (fun c => c == codeSetInherit) setInheritEffect s

/-- The effect of a QUERY_FRAME (R27). -/
def queryFrameEffect (h : HostId) (d : Desc) (s : State) : State :=
  if s.frameCount ≤ d.frame then s.finish h d .badArgument
  else s.complete h d.tag d.code .ok (.snapshot d.frame (s.frame d.frame))

/-- QUERY_FRAME (R27). -/
def execQueryFrame (s : State) : Host.Outcome State Fault Refusal :=
  taking (fun c => c == codeQueryFrame) queryFrameEffect s

end Sys2Proof.Machine
end

