-- ==== Sys2Proof/Machine/HostCommands.lean ====
section
/-! DEFINITION. The commands of Chapters 2 and 8: QUERY_HOST, LEAVE, and a descriptor whose code names no command. -/

namespace Sys2Proof.Machine

/-- The host figures of a QUERY_HOST (R41). -/
def State.hostFigures (s : State) (h : HostId) : HostFigures where
  owned := s.owned.get h
  quota := s.quotaOf h
  waiting := s.waiting.get h
  members := PerHost.make s.isMember
  freeLength := s.freeList.length
  scrubLength := s.scrubQueue.length
  load := s.load
  frames := s.frameCount
  grace := s.graceOf 0
  lifetime := s.lifetimeOf 0

/-- The effect of a QUERY_HOST (R41). -/
def queryHostEffect (h : HostId) (d : Desc) (s : State) : State :=
  s.complete h d.tag d.code .ok (.figures (s.hostFigures h))

/-- QUERY_HOST (R41). -/
def execQueryHost (s : State) : Host.Outcome State Fault Refusal :=
  taking (fun c => c == codeQueryHost) queryHostEffect s

/-- The effect of a LEAVE (R42, R147). -/
def leaveEffect (h : HostId) (d : Desc) (s : State) : State := s.startDeparture h (.leave d.tag)

/-- LEAVE (R42). -/
def execLeave (s : State) : Host.Outcome State Fault Refusal := taking (fun c => c == codeLeave) leaveEffect s

/-- The effect of a descriptor whose code names no command (R34): the completion carries the code as written. -/
def badCommandEffect (h : HostId) (d : Desc) (s : State) : State := s.finish h d .badCommand

/-- BAD_COMMAND (R34, R171). -/
def execBadCommand (s : State) : Host.Outcome State Fault Refusal :=
  taking (fun c => !codeKnown c) badCommandEffect s

end Sys2Proof.Machine
end

