-- ==== Sys2Proof/Machine/MapEvents.lean ====
section
/-! DEFINITION. The Map Controller's own events: DRAIN_CHECK, GRACE_EXPIRY, OFFER_EXPIRY, DRAIN_PHASE_END, SWEEP_STEP. -/

namespace Sys2Proof.Machine

/-- A drain check made: Translation Unit h reports whether its ORT holds an entry for the frame (R48, R120). -/
def State.drainCheck (s : State) (h : HostId) (f : Nat) : State :=
  let s := { s with drainChecks := s.drainChecks.erase (h, f) }
  if (s.unit h).holdsFrame f then s else s.drainReport h f

/-- DRAIN_CHECK (R48): a drain check that the Map Controller has asked for (log entry 15). -/
def execDrainCheck (h : HostId) (f : Nat) (s : State) : Host.Outcome State Fault Refusal :=
  if (h, f) ∈ s.drainChecks then .next (s.drainCheck h f) else .next s

/-- The grace expiry of a record: with its deadline present and reached, every target in NOTICE enters CLOSING and the
deadline becomes absent (R52, R165). -/
def State.graceExpiry (s : State) (id : Nat) : State :=
  match s.record id with
  | some r =>
    match r.deadline with
    | some d => if deadlineReached s.tick d then s.moveRecord id r (r.close (fun _ => true)) else s
    | none => s
  | none => s

/-- GRACE_EXPIRY (R52): at the tick that brings the counter to the deadline; an expiry that has not come when the next tick
does is taken by that tick (`execTick`; log entry 4). -/
def execGraceExpiry (id : Fin 16) (s : State) : Host.Outcome State Fault Refusal := .next (s.graceExpiry id.val)

/-- An open offer's end at its expiry, both parties told (R82). -/
def State.expireOffer (s : State) (i : Nat) (o : Offer) : State :=
  let e : Event := .offerClosed ⟨i, (s.offerSlot i).serial⟩ o.frame .expired
  ((s.removeOffer i o).notify o.giver e).notify o.recipient e

/-- The expiry of the open offer of a slot, once its deadline is reached (R82, R165). -/
def State.offerExpiry (s : State) (i : Nat) : State :=
  match (s.offerSlot i).offer with
  | some o => if deadlineReached s.tick o.deadline then s.expireOffer i o else s
  | none => s

/-- OFFER_EXPIRY (R82): at the tick that brings the counter to the deadline; see `execTick` and log entry 4. -/
def execOfferExpiry (i : Fin 8) (s : State) : Host.Outcome State Fault Refusal := .next (s.offerExpiry i.val)

/-- The slot holds an open offer whose deadline is reached (R82, R165). -/
def State.offerDue (s : State) (i : Nat) : Bool :=
  match (s.offerSlot i).offer with
  | some o => deadlineReached s.tick o.deadline
  | none => false

/-- The expiries due at the counter as it stands, each its own event (R165). Grace expiries touch one record each; the
spec gives offer expiries of one tick no order among them (R82): they follow the free order of Config (log entry 11). -/
def State.takeExpiries (s : State) : State :=
  let order := sortRanked (Config.freeRank s.fresh) ((List.range Config.offerCount).filter s.offerDue)
  let s := (List.range Config.recallCount).foldl State.graceExpiry { s with fresh := s.fresh + 1 }
  order.foldl State.offerExpiry s

/-- DRAIN_PHASE_END (R150): the report that the departing port's ORT is empty is received. It stands made when the
departure is DRAINING and the ORT is empty (R119, R149; log entry 16). -/
def execDrainPhaseEnd (h : HostId) (s : State) : Host.Outcome State Fault Refusal :=
  match s.departures.get h with
  | some d => if d.phase = .draining ∧ (s.unit h).ort = [] then .next (s.endDrainPhase h d.cause) else .next s
  | none => .next s

/-- A sweep step at a frame, no forced freeing being under way: the cases of R151 from the second on. -/
def State.sweepAt (s : State) (h : HostId) (cause : Cause) (f : Nat) : State :=
  let fr := s.frame f
  if fr.owner ≠ some h ∧ fr.access.get h = .none then s.passSweep h cause f
  else if fr.closing.get h then s
  else if fr.recallSet ≠ [] then s
  else if fr.owner ≠ some h then (s.removeGrant f h).passSweep h cause f
  else if fr.state = .held then
    match (if fr.inheritFlag then s.heirOf f h else none) with
    | some k => (s.inheritFrame f h k).passSweep h cause f
    | none => s.beginForcedFreeing f h cause
  else s

/-- SWEEP_STEP (R151). A step at a frame whose forced freeing is under way waits. -/
def execSweepStep (h : HostId) (s : State) : Host.Outcome State Fault Refusal :=
  match s.departures.get h with
  | some ⟨cause, .sweeping f false⟩ => .next (s.sweepAt h cause f)
  | _ => .next s

end Sys2Proof.Machine
end

