-- ==== Sys2Proof/Machine/OfferCommands.lean ====
section
/-! DEFINITION. Chapter 4's commands: OFFER, ACCEPT, DECLINE, WITHDRAW. -/

namespace Sys2Proof.Machine

/-- The checks of OFFER after its field checks, in order (R72). -/
def State.offerCheck (s : State) (h : HostId) (f : Nat) (t : HostId) : Result :=
  if s.ownerLeaving f then .ownerLeaving
  else if (s.frame f).owner ≠ some h then .notOwner
  else if (s.frame f).state ≠ .held then .wrongState
  else if t = h then .badArgument
  else if s.isMember t = false then .hostAbsent
  else if (s.frame f).offer ≠ none ∨ (s.frame f).recallSet ≠ [] then .busy
  else if s.freeOfferSlot = none then .noRecord
  else .ok

/-- An offer opened in a free slot, the recipient and the giver told (R73). -/
def State.openOfferIn (s : State) (h : HostId) (d : Desc) (t : HostId) (residual : Level) (i : Nat) : State :=
  let deadline := deadlineAfter s.tick (s.lifetimeOf d.time)
  let hd : Handle := ⟨i, (s.offerSlot i).serial⟩
  let s := s.setOfferSlot i ⟨hd.serial, some ⟨d.frame, h, t, residual, deadline⟩⟩
  let s := s.updFrame d.frame (fun fr => { fr with offer := some hd })
  let s := s.notify t
    (.offerReceived hd d.frame h residual (s.frame d.frame).label (ticksRemaining s.tick deadline))
  s.complete h d.tag d.code .ok (.handle hd)

/-- The effect of an OFFER (R72, R73). -/
def offerEffect (h : HostId) (d : Desc) (s : State) : State :=
  match hostOfNat d.host, levelOfNat d.level with
  | some t, some residual =>
    if s.frameCount ≤ d.frame then s.finish h d .badArgument
    else
      match s.offerCheck h d.frame t with
      | .ok =>
        match s.freeOfferSlot with
        | some i => s.openOfferIn h d t residual i
        | none => s.finish h d .noRecord
      | r => s.finish h d r
  | _, _ => s.finish h d .badArgument

/-- OFFER (R72). -/
def execOffer (s : State) : Host.Outcome State Fault Refusal := taking (fun c => c == codeOffer) offerEffect s

/-- The checks of ACCEPT on an open offer, in order (R75). -/
def State.acceptCheck (s : State) (h : HostId) (o : Offer) : Result :=
  if o.recipient ≠ h then .badArgument
  else if s.quotaOf h < s.owned.get h + s.waiting.get h + 1 then .quota
  else if o.residual = .none ∧ s.freeRecordId = none then .noRecord
  else .ok

/-- The HANDOVER record (R78). -/
def handoverRecord (h : HostId) (d : Desc) (o : Offer) : RecallRecord :=
  { frame := o.frame, purpose := .handover, requester := h, tag := d.tag, forced := true
    targets := (PerHost.all none).set o.giver (some .closing)
    deadline := none }

/-- Ownership moves to the recipient (R76); the giver's level becomes a residual of RW or READ at once (R77) and stays for
a residual of NONE (R78). -/
def State.moveOwnership (s : State) (h : HostId) (i : Nat) (o : Offer) : State :=
  let s := s.removeOffer i o
  let s := s.updFrame o.frame (fun fr =>
    { fr with owner := some h,
              access := (if o.residual = .none then fr.access else fr.access.set o.giver o.residual).set h .rw })
  let s := s.lowerOwned (some o.giver)
  { s with owned := s.owned.set h (s.owned.get h + 1) }

/-- The effect of an ACCEPT (R75 to R79). -/
def acceptEffect (h : HostId) (d : Desc) (s : State) : State :=
  match s.openOffer d.handle with
  | none => s.finish h d .gone
  | some o =>
    match s.acceptCheck h o with
    | .ok =>
      let told := (s.frame o.frame).holders (fun k => decide (k = h ∨ k = o.giver))
      let s := s.moveOwnership h d.handle.slot o
      let s := s.notify o.giver (.offerClosed d.handle o.frame .accepted)
      let s := s.notifyAll told (.ownerChanged o.frame h .offer)
      if o.residual = .none then
        match s.freeRecordId with
        | some id => s.openRecord id (handoverRecord h d o)
        | none => s
      else s.finish h d .ok
    | r => s.finish h d r

/-- ACCEPT (R75). -/
def execAccept (s : State) : Host.Outcome State Fault Refusal := taking (fun c => c == codeAccept) acceptEffect s

/-- The effect of a DECLINE (R80). -/
def declineEffect (h : HostId) (d : Desc) (s : State) : State :=
  match s.openOffer d.handle with
  | none => s.finish h d .gone
  | some o =>
    if o.recipient ≠ h then s.finish h d .badArgument
    else
      ((s.removeOffer d.handle.slot o).notify o.giver (.offerClosed d.handle o.frame .declined)).finish h d .ok

/-- DECLINE (R80). -/
def execDecline (s : State) : Host.Outcome State Fault Refusal := taking (fun c => c == codeDecline) declineEffect s

/-- The effect of a WITHDRAW (R81). -/
def withdrawEffect (h : HostId) (d : Desc) (s : State) : State :=
  match s.openOffer d.handle with
  | none => s.finish h d .gone
  | some o =>
    if o.giver ≠ h then s.finish h d .badArgument
    else
      ((s.removeOffer d.handle.slot o).notify o.recipient (.offerClosed d.handle o.frame .withdrawn)).finish h d .ok

/-- WITHDRAW (R81). -/
def execWithdraw (s : State) : Host.Outcome State Fault Refusal :=
  taking (fun c => c == codeWithdraw) withdrawEffect s

end Sys2Proof.Machine
end

