-- ==== Sys2Proof/Machine/RecallCommands.lean ====
section
/-! DEFINITION. Chapter 3's commands: FREE, GRANT, REVOKE, RELEASE. -/

namespace Sys2Proof.Machine

/-- The checks of FREE, in order (R34, R63). -/
def State.freeCheck (s : State) (h : HostId) (d : Desc) : Result :=
  if s.frameCount ≤ d.frame ∨ d.modeLegal = false then .badArgument
  else if s.ownerLeaving d.frame then .ownerLeaving
  else if (s.frame d.frame).owner ≠ some h then .notOwner
  else if (s.frame d.frame).state ≠ .held then .wrongState
  else if (s.frame d.frame).recallSet ≠ [] then .busy
  else if s.freeRecordId = none then .noRecord
  else .ok

/-- First phase of a target of a FREE record (R65). -/
def State.freePhase (s : State) (h : HostId) (d : Desc) (k : HostId) : Option Phase :=
  let fr := s.frame d.frame
  let goesNotice := fun j => decide (j ≠ h) && decide (fr.access.get j ≠ .none) && !d.isForced && s.isMember j
  if fr.access.get k = .none then none
  else if k = h then (if hosts.any goesNotice then some .notice else some .closing)
  else if goesNotice k then some .notice
  else some .closing

/-- The FREE record of a FREE that passes its checks (R51, R65). -/
def State.freeRecord (s : State) (h : HostId) (d : Desc) : RecallRecord :=
  let r : RecallRecord := ⟨d.frame, .free, h, d.tag, d.isForced, PerHost.make (s.freePhase h d), none⟩
  { r with deadline := if r.someNotice then some (deadlineAfter s.tick (s.graceOf d.time)) else none }

/-- An open offer on the frame of a FREE is withdrawn first, the recipient told (R64). -/
def State.withdrawForFree (s : State) (f : Nat) : State :=
  match (s.frame f).offer with
  | some hd =>
    match (s.offerSlot hd.slot).offer with
    | some o => (s.removeOffer hd.slot o).notify o.recipient (.offerClosed hd f .withdrawn)
    | none => s
  | none => s

/-- The effect of a FREE (R63, R64, R65). -/
def freeEffect (h : HostId) (d : Desc) (s : State) : State :=
  match s.freeCheck h d with
  | .ok =>
    match s.freeRecordId with
    | some id =>
      let s := s.withdrawForFree d.frame
      let r := s.freeRecord h d
      (s.updFrame d.frame (fun fr => { fr with state := .freeing })).openRecord id r
    | none => s.finish h d .noRecord
  | r => s.finish h d r

/-- FREE (R63). -/
def execFree (s : State) : Host.Outcome State Fault Refusal := taking (fun c => c == codeFree) freeEffect s

/-- The checks of GRANT after its field checks, in order (R53). -/
def State.grantCheck (s : State) (h : HostId) (f : Nat) (g : HostId) (level : Level) : Result :=
  if s.ownerLeaving f then .ownerLeaving
  else if (s.frame f).owner ≠ some h then .notOwner
  else if (s.frame f).state ≠ .held then .wrongState
  else if g = h then .badArgument
  else if s.isMember g = false then .hostAbsent
  else if (s.frame f).offer ≠ none ∨ s.recallOf f g ≠ none then .busy
  else if level.code < ((s.frame f).access.get g).code then .wrongState
  else .ok

/-- The effect of a GRANT (R53, R54). -/
def grantEffect (h : HostId) (d : Desc) (s : State) : State :=
  match hostOfNat d.host, levelOfNat d.level with
  | some g, some level =>
    if s.frameCount ≤ d.frame ∨ level = .none then s.finish h d .badArgument
    else
      match s.grantCheck h d.frame g level with
      | .ok =>
        if (s.frame d.frame).access.get g = level then s.finish h d .ok
        else
          let label := (s.frame d.frame).label
          let s := s.updFrame d.frame (fun fr => { fr with access := fr.access.set g level })
          (s.notify g (.granted d.frame h level label)).finish h d .ok
      | r => s.finish h d r
  | _, _ => s.finish h d .badArgument

/-- GRANT (R53). -/
def execGrant (s : State) : Host.Outcome State Fault Refusal := taking (fun c => c == codeGrant) grantEffect s

/-- The checks of REVOKE after its field checks, in order (R55). -/
def State.revokeCheck (s : State) (h : HostId) (f : Nat) (g : HostId) : Result :=
  if s.ownerLeaving f then .ownerLeaving
  else if (s.frame f).owner ≠ some h then .notOwner
  else if (s.frame f).state ≠ .held then .wrongState
  else if g = h then .badArgument
  else if (s.frame f).access.get g = .none then .noAccess
  else if s.isLeaving g then .hostAbsent
  else if (s.frame f).offer ≠ none then .busy
  else .ok

/-- The REVOKE record (R51, R57). A grantee that passed R55's checks is MEMBER; one that were not would enter CLOSING,
since a target enters NOTICE only when its host is MEMBER (R46). -/
def State.revokeRecord (s : State) (h : HostId) (d : Desc) (g : HostId) : RecallRecord :=
  let notice := !d.isForced && s.isMember g
  { frame := d.frame, purpose := .revoke, requester := h, tag := d.tag, forced := d.isForced
    targets := (PerHost.all none).set g (some (if notice then .notice else .closing))
    deadline := if notice then some (deadlineAfter s.tick (s.graceOf d.time)) else none }

/-- The effect of a REVOKE (R55, R56, R57). -/
def revokeEffect (h : HostId) (d : Desc) (s : State) : State :=
  match hostOfNat d.host with
  | some g =>
    if s.frameCount ≤ d.frame ∨ d.modeLegal = false then s.finish h d .badArgument
    else
      match s.revokeCheck h d.frame g with
      | .ok =>
        match s.recallOf d.frame g with
        | some id =>
          match s.record id with
          | some r =>
            if r.targets.get g = some .notice ∧ d.isForced then (s.upgradeRecord id).finish h d .ok
            else s.finish h d .busy
          | none => s.finish h d .busy
        | none =>
          match s.freeRecordId with
          | some id => s.openRecord id (s.revokeRecord h d g)
          | none => s.finish h d .noRecord
      | r => s.finish h d r
  | none => s.finish h d .badArgument

/-- REVOKE (R55). -/
def execRevoke (s : State) : Host.Outcome State Fault Refusal := taking (fun c => c == codeRevoke) revokeEffect s

/-- The RELEASE record (R62). -/
def releaseRecord (h : HostId) (d : Desc) : RecallRecord :=
  { frame := d.frame, purpose := .release, requester := h, tag := d.tag, forced := true
    targets := (PerHost.all none).set h (some .closing)
    deadline := none }

/-- The cases of a RELEASE after the record cases of R59 (R61, R62). -/
def State.releaseUnrecorded (s : State) (h : HostId) (d : Desc) : State :=
  if (s.frame d.frame).closing.get h then s.finish h d .late
  else if (s.frame d.frame).access.get h = .none then s.finish h d .noAccess
  else if (s.frame d.frame).offer ≠ none then s.finish h d .busy
  else
    match s.freeRecordId with
    | some id => s.openRecord id (releaseRecord h d)
    | none => s.finish h d .noRecord

/-- The effect of a RELEASE (R59 to R62). "The RELEASE is not refused with OWNER_LEAVING" (R59). DEDUCED (log entry 29): that
holds for a host with access NONE too, which R59 answers NO_ACCESS whatever the owner's state, although R35 and R40 name a
grantee's RELEASE as the exception. -/
def releaseEffect (h : HostId) (d : Desc) (s : State) : State :=
  if s.frameCount ≤ d.frame then s.finish h d .badArgument
  else if (s.frame d.frame).owner = some h then s.finish h d .isOwner
  else
    match s.recallOf d.frame h with
    | some id =>
      match s.record id with
      | some r =>
        if r.targets.get h = some .notice then
          (s.moveRecord id r (r.close (fun k => decide (k = h)))).finish h d .ok
        else s.finish h d .late
      | none => s.finish h d .late
    | none => s.releaseUnrecorded h d

/-- RELEASE (R59). -/
def execRelease (s : State) : Host.Outcome State Fault Refusal := taking (fun c => c == codeRelease) releaseEffect s

end Sys2Proof.Machine
end

