-- ==== Sys2Proof/Machine/StartUp.lean ====
section
/-! DEFINITION. Chapters 8 and 9: link reports, the Timebase, the configuration load and device reset. -/

namespace Sys2Proof.Machine

/-- A configuration load is under way (R160). -/
def State.loadUnderWay (s : State) : Bool := !s.resetAsserted && decide (s.load = .loading)

/-- The load's time-out: with the load under way at tick 100 it ends DEFAULTED (R160). -/
def State.loadTimeout (s : State) : State :=
  if s.loadUnderWay ∧ s.tick.toNat = Config.loadTimeoutTick then
    s.enterConfiguration .defaulted (defaultConfiguration s.strap)
  else s

/-- LOAD_TIMEOUT (R160, R164): at tick 100; a time-out that has not come when the next tick does is taken by that tick
(`execTick`; log entry 4). -/
def execLoadTimeout (s : State) : Host.Outcome State Fault Refusal := .next s.loadTimeout

/-- What the tick that brought the counter to its value drives, so far as its command has not come yet: the load's
time-out and the expiries (R164, R165). -/
def State.takeDue (s : State) : State := s.loadTimeout.takeExpiries

/-- TICK (R164): the counter advances by one. Whatever fell due at the counter's old value and has not been taken is taken
first, since the time-out and the expiries fall at the tick that reaches them (R164, R165; log entry 4): the counter runs
past none of them. While RESET_N is asserted there is no tick (R166). -/
def execTick (s : State) : Host.Outcome State Fault Refusal :=
  if s.resetAsserted then .next s else .next { s.takeDue with tick := s.tick + 1 }

/-- IMAGE_RECEIVED (R160, R161): the 64th byte has been received and the checks are made. When tick 100 has come first the
byte is ignored (R160; log entry 5). -/
def execImageReceived (image : List Byte) (s : State) : Host.Outcome State Fault Refusal :=
  if s.loadUnderWay ∧ s.tick.toNat < Config.loadTimeoutTick ∧ image.length = 64 then
    if imagePasses image s.strap then .next (s.enterConfiguration .loaded (imageConfiguration image))
    else .next (s.enterConfiguration .defaulted (defaultConfiguration s.strap))
  else .next s

/-- A link-up report at a port whose link state was DOWN (R143, R125). -/
def State.linkComesUp (s : State) (h : HostId) : State :=
  s.updPort h (fun p =>
    { p with linkUp := true
             portState := if p.portState = .down then .attached else p.portState
             sent := p.sent ++ [.creditGrant (s.unit h).creditTags] })

/-- LINK_UP (R143): while RESET_N is asserted no report reaches a port (R166), and at a port whose link state is UP it
changes nothing. -/
def execLinkUp (h : HostId) (s : State) : Host.Outcome State Fault Refusal :=
  if s.resetAsserted ∨ (s.port h).linkUp then .next s else .next (s.linkComesUp h)

/-- LINK_DOWN (R144). -/
def execLinkDown (h : HostId) (s : State) : Host.Outcome State Fault Refusal :=
  match (s.port h).portState with
  | .down => .next s
  | .attached =>
    .next (s.updPort h (fun p => { p.clearLists with portState := .down, linkUp := false }))
  | .member => .next ((s.updPort h (fun p => { p with linkUp := false })).startDeparture h .link)
  | .leaving => .next (s.updPort h (fun p => { p with linkUp := false }))

/-- DEVICE_RESET (R166): every block takes its reset state. The queue of waiting commands is the sender's and stays; the
contents of the pool are unknown anew (R126; log entries 7 and 9). -/
def execDeviceReset (s : State) : Host.Outcome State Fault Refusal :=
  .next { State.reset with pending := s.pending, resetCount := s.resetCount + 1, fresh := s.fresh }

/-- RESET_DEASSERT (R166, R160): the strap is sampled, the Timebase begins counting from 0, and the load begins with the
PROM select line asserted. -/
def execResetDeassert (strap : BitVec 2) (s : State) : Host.Outcome State Fault Refusal :=
  if s.resetAsserted then
    .next { s with resetAsserted := false, strap := strap, tick := 0, load := .loading, config := none,
                   promSelect := true }
  else .next s

end Sys2Proof.Machine
end

