-- ==== Sys2Proof/Machine/WindowCommands.lean ====
section
/-! DEFINITION. Chapter 5's commands: SET_WINDOW, CLEAR_WINDOW, MAP_SLOT, UNMAP_SLOT. -/

namespace Sys2Proof.Machine

/-- The field checks of SET_WINDOW (R34, R88). -/
def Desc.windowFieldsLegal (d : Desc) : Bool :=
  decide (d.window < Config.windowCount ∧ d.sizeCode ≤ 14 ∧ d.windowMode ≤ 1)

/-- The window a SET_WINDOW describes (R89): the field of the other mode is not stored. -/
def Desc.toWindow (d : Desc) : Window :=
  ⟨d.base, d.sizeCode, if d.windowMode = 0 then .direct d.first else .mapped d.first, d.writable⟩

/-- Two windows share an address (R88). -/
def Window.overlaps (a b : Window) : Bool :=
  decide (a.base < b.base + windowBytes b.sizeCode ∧ b.base < a.base + windowBytes a.sizeCode)

/-- The checks of SET_WINDOW, in order (R88). -/
def State.setWindowCheck (s : State) (h : HostId) (d : Desc) : Result :=
  if d.windowFieldsLegal = false then .badArgument
  else if ((s.unit h).window d.window).isSome then .busy
  else if d.base % windowBytes d.sizeCode ≠ 0 then .badArgument
  else if Config.apertureBytes ≤ d.base then .badArgument
  else if d.windowMode = 0 ∧ s.frameCount < d.first + 2 ^ d.sizeCode then .badArgument
  else if d.windowMode ≠ 0 ∧ Config.slotCount < d.first + 2 ^ d.sizeCode then .badArgument
  else if (List.range Config.windowCount).any (fun i =>
      match (s.unit h).window i with
      | some w => d.toWindow.overlaps w
      | none => false) then .overlap
  else .ok

/-- The unit with one window's content replaced. -/
def TranslationUnit.setWindow (u : TranslationUnit) (i : Nat) (w : Option Window) : TranslationUnit :=
  { u with windows := Table.set none u.windows i w }

/-- The unit with one slot's content replaced. -/
def TranslationUnit.setSlot (u : TranslationUnit) (i : Nat) (sl : Option Slot) : TranslationUnit :=
  { u with slots := Table.set none u.slots i sl }

/-- The effect of a SET_WINDOW (R88, R89). -/
def setWindowEffect (h : HostId) (d : Desc) (s : State) : State :=
  match s.setWindowCheck h d with
  | .ok => (s.updUnit h (·.setWindow d.window (some d.toWindow))).finish h d .ok
  | r => s.finish h d r

/-- SET_WINDOW (R88). -/
def execSetWindow (s : State) : Host.Outcome State Fault Refusal :=
  taking (fun c => c == codeSetWindow) setWindowEffect s

/-- The effect of a CLEAR_WINDOW (R90). -/
def clearWindowEffect (h : HostId) (d : Desc) (s : State) : State :=
  if Config.windowCount ≤ d.window then s.finish h d .badArgument
  else (s.updUnit h (·.setWindow d.window none)).finish h d .ok

/-- CLEAR_WINDOW (R90). -/
def execClearWindow (s : State) : Host.Outcome State Fault Refusal :=
  taking (fun c => c == codeClearWindow) clearWindowEffect s

/-- The checks of MAP_SLOT, in order (R92). -/
def State.mapSlotCheck (s : State) (h : HostId) (d : Desc) : Result :=
  if Config.slotCount ≤ d.slot ∨ s.frameCount ≤ d.frame then .badArgument
  else if s.ownerLeaving d.frame then .ownerLeaving
  else if (s.frame d.frame).access.get h = .none then .noAccess
  else if (s.frame d.frame).state ≠ .held then .wrongState
  else .ok

/-- The effect of a MAP_SLOT (R92, R93). -/
def mapSlotEffect (h : HostId) (d : Desc) (s : State) : State :=
  match s.mapSlotCheck h d with
  | .ok =>
    (s.updUnit h (·.setSlot d.slot (some ⟨d.frame, (s.frame d.frame).generation⟩))).finish h d .ok
  | r => s.finish h d r

/-- MAP_SLOT (R92). -/
def execMapSlot (s : State) : Host.Outcome State Fault Refusal := taking (fun c => c == codeMapSlot) mapSlotEffect s

/-- The effect of an UNMAP_SLOT (R94). -/
def unmapSlotEffect (h : HostId) (d : Desc) (s : State) : State :=
  if Config.slotCount ≤ d.slot then s.finish h d .badArgument
  else (s.updUnit h (·.setSlot d.slot none)).finish h d .ok

/-- UNMAP_SLOT (R94). -/
def execUnmapSlot (s : State) : Host.Outcome State Fault Refusal :=
  taking (fun c => c == codeUnmapSlot) unmapSlotEffect s

end Sys2Proof.Machine
end

