-- ==== Sys2Proof/Machine/Dispatch.lean ====
section
/-! DEFINITION. The effect of every command on everything but the queue: one arm per row of spec/opcode_table.json. -/

namespace Sys2Proof.Machine

def exec (i : Instr) (s : State) : Host.Outcome State Fault Refusal :=
  match i with
  | .alloc => Sys2Proof.Machine.execAlloc s
  | .cancelAlloc => Sys2Proof.Machine.execCancelAlloc s
  | .setLabel => Sys2Proof.Machine.execSetLabel s
  | .setInherit => Sys2Proof.Machine.execSetInherit s
  | .queryFrame => Sys2Proof.Machine.execQueryFrame s
  | .free => Sys2Proof.Machine.execFree s
  | .grant => Sys2Proof.Machine.execGrant s
  | .revoke => Sys2Proof.Machine.execRevoke s
  | .release => Sys2Proof.Machine.execRelease s
  | .offer => Sys2Proof.Machine.execOffer s
  | .accept => Sys2Proof.Machine.execAccept s
  | .decline => Sys2Proof.Machine.execDecline s
  | .withdraw => Sys2Proof.Machine.execWithdraw s
  | .setWindow => Sys2Proof.Machine.execSetWindow s
  | .clearWindow => Sys2Proof.Machine.execClearWindow s
  | .mapSlot => Sys2Proof.Machine.execMapSlot s
  | .unmapSlot => Sys2Proof.Machine.execUnmapSlot s
  | .queryHost => Sys2Proof.Machine.execQueryHost s
  | .leave => Sys2Proof.Machine.execLeave s
  | .badCommand => Sys2Proof.Machine.execBadCommand s
  | .staging h w => Sys2Proof.Machine.execStaging h w s
  | .submit h w => Sys2Proof.Machine.execSubmit h w s
  | .join h w => Sys2Proof.Machine.execJoin h w s
  | .eventPop h len => Sys2Proof.Machine.execEventPop h len s
  | .faultPop h len => Sys2Proof.Machine.execFaultPop h len s
  | .noticeLostClear h w => Sys2Proof.Machine.execNoticeLostClear h w s
  | .intEnable h w => Sys2Proof.Machine.execIntEnable h w s
  | .controlWrite h w => Sys2Proof.Machine.execControlWrite h w s
  | .dataRequestArrival h r => Sys2Proof.Machine.execDataRequestArrival h r s
  | .poolGrant => Sys2Proof.Machine.execPoolGrant s
  | .scrubWritePerformed => Sys2Proof.Machine.execScrubWritePerformed s
  | .readPerformed e0 e1 => Sys2Proof.Machine.execReadPerformed e0 e1 s
  | .writePerformed e0 e1 => Sys2Proof.Machine.execWritePerformed e0 e1 s
  | .drainCheck h f => Sys2Proof.Machine.execDrainCheck h f s
  | .graceExpiry id => Sys2Proof.Machine.execGraceExpiry id s
  | .offerExpiry slot => Sys2Proof.Machine.execOfferExpiry slot s
  | .tick => Sys2Proof.Machine.execTick s
  | .loadTimeout => Sys2Proof.Machine.execLoadTimeout s
  | .imageReceived image => Sys2Proof.Machine.execImageReceived image s
  | .linkUp h => Sys2Proof.Machine.execLinkUp h s
  | .linkDown h => Sys2Proof.Machine.execLinkDown h s
  | .drainPhaseEnd h => Sys2Proof.Machine.execDrainPhaseEnd h s
  | .sweepStep h => Sys2Proof.Machine.execSweepStep h s
  | .deviceReset => Sys2Proof.Machine.execDeviceReset s
  | .resetDeassert strap => Sys2Proof.Machine.execResetDeassert strap s

end Sys2Proof.Machine
end

