-- ==== Sys2Proof/Safety.lean ====
section
/-! DEFINITION. The terms in which statements about the KV416 are put: a taking and its answer, and what holds at every
moment, the laws the spec states of its tables, queues and lines, as predicates of State. -/

namespace Sys2Proof.Machine

/-! ### Takings and their answers -/

/-- The command arbiter takes next from host `h`, and the descriptor it takes is `d`, of the given command code (R31, R32,
R171). -/
def State.Takes (s : State) (h : HostId) (d : Desc) (code : Byte) : Prop :=
  ∃ raw, s.picked = some (h, raw) ∧ Desc.ofBytes raw = d ∧ d.code = code

/-- The completion of a command (R36): its tag and code as submitted, a result and a payload. -/
def Desc.reply (d : Desc) (r : Result) (p : Payload) : Event := .completion d.tag d.code r p

/-- A port whose head command is taken and answered in one event (R31, R36): the descriptor has left the Command Queue,
the completion stands at the tail of the Event Queue, the reserved count is as it was. -/
def HostPort.answered (p : HostPort) (e : Event) : HostPort :=
  { p with queue := p.queue.tail, events := p.events ++ [e] }.refreshHirq

/-- The state after a taking from host `h` that is answered at once and does nothing else (R31, R32, R36). -/
def State.answered (s : State) (h : HostId) (e : Event) : State :=
  { s.setPort h ((s.port h).answered e) with cmdPointer := h + 1 }

/-- The state after a taking from host `h` that is answered at once without a payload and does nothing else. -/
def State.replied (s : State) (h : HostId) (d : Desc) (r : Result) : State := s.answered h (d.reply r .none)

/-- The frame has a Recall Record with the host as a target not yet DRAINED, in the given phase (section 3.1). -/
abbrev State.Recalled (s : State) (f : Nat) (h : HostId) (id : Nat) (r : RecallRecord) (p : Phase) : Prop :=
  s.recallOf f h = some id ∧ s.record id = some r ∧ r.targets.get h = some p

/-! ### The laws -/

/-- Every table is in its canonical form. -/
def State.TablesCanonical (s : State) : Prop :=
  Table.wf FrameRecord.initial s.frames ∧ Table.wf none s.recalls ∧ Table.wf OfferSlot.initial s.offers ∧
  Table.wf BlockStatus.unknown s.blocks ∧ Table.wf (0 : Byte) s.mem ∧
  ∀ h, Table.wf none (s.unit h).windows ∧ Table.wf none (s.unit h).slots

/-- Every interrupt line follows its condition (R139). -/
def State.HirqFollows (s : State) : Prop := ∀ h, (s.port h).hirq = (s.port h).hirqCondition

/-- The lists of a port keep their bounds (R28, R30, R127, R134), and a LEAVING port's Event Queue is empty (R140). -/
def HostPort.Bounded (p : HostPort) : Prop :=
  p.staging.length = 32 ∧ p.queue.length ≤ 16 ∧ (∀ d ∈ p.queue, d.length = 32) ∧
  p.events.length + p.reserved ≤ 64 ∧ p.faults.length ≤ 8 ∧ (∀ r ∈ p.faults, r.suppressed ≤ 255) ∧
  (p.portState = .leaving → p.events = [] ∧ p.reserved = 0)

/-- Queues, logs and counters keep their bounds, and no two entries of one ORT hold the same tag (R17, R111, R113). -/
def State.Bounded (s : State) : Prop :=
  (∀ h, (s.port h).Bounded) ∧ (∀ h, ((s.unit h).ort.map (·.tag)).Nodup) ∧ s.turn ≤ 16 ∧
  s.scrubPos < Config.blocksPerFrame

/-- The port state agrees with the link, the tables and the departure record (R30, R86, R91, R142, R147, R166). -/
def State.PortConsistent (s : State) (h : HostId) : Prop :=
  ((s.port h).portState = .down → (s.port h).linkUp = false) ∧
  ((s.port h).portState = .attached ∨ (s.port h).portState = .member → (s.port h).linkUp = true) ∧
  ((s.port h).portState ≠ .member →
    (s.port h).queue = [] ∧ (s.unit h).windows = [] ∧ (s.unit h).slots = [] ∧
    (s.port h).faults = [] ∧ (s.port h).reserved = 0 ∧ (s.port h).noticeLost = false) ∧
  ((s.port h).portState = .leaving ↔ s.departures.get h ≠ none)

/-- A host is MEMBER only after the configuration load has ended (R19, R145). -/
def State.MembersAfterLoad (s : State) : Prop :=
  (s.load = .loading ↔ s.config = none) ∧ (s.resetAsserted = true → s.load = .loading) ∧
  (s.config = none → ∀ h, (s.port h).portState = .down ∨ (s.port h).portState = .attached)

/-- The membership invariant of the four ports. -/
def State.MembershipSound (s : State) : Prop :=
  (∀ h, s.PortConsistent h) ∧ s.MembersAfterLoad ∧
  (s.resetAsserted = true → ∀ h, (s.port h).portState = .down)

/-- Every frame is in exactly one place (R3): the Free List with state FREE, the Scrub Queue with state SCRUBBING, or owned. -/
def State.FrameLaw (s : State) : Prop :=
  s.freeList.Nodup ∧ s.scrubQueue.Nodup ∧
  (∀ f, f ∈ s.freeList ↔ f < s.frameCount ∧ (s.frame f).state = .free) ∧
  (∀ f, f ∈ s.scrubQueue ↔ f < s.frameCount ∧ (s.frame f).state = .scrubbing) ∧
  ∀ f, s.frameCount ≤ f → (s.frame f).state = .scrubbing

/-- The waiting counts are those of the entries of the Allocation Wait List, at most one for each host (R13, R22). -/
def State.WaitListSound (s : State) : Prop :=
  (s.waitList.map (·.host)).Nodup ∧ (∀ e ∈ s.waitList, s.waiting.get e.host = e.count) ∧
  (∀ h, s.waitEntry h = none → s.waiting.get h = 0)

/-- Owned count plus waiting count never exceeds the quota (R14). -/
def State.QuotaLaw (s : State) : Prop :=
  s.WaitListSound ∧ ∀ h, s.owned.get h + s.waiting.get h ≤ s.quotaOf h

/-- For every frame and host, at most one Recall Record has the host as a target not yet DRAINED (R45). -/
def State.OneRecallEach (s : State) : Prop :=
  ∀ i j ri rj, s.record i = some ri → s.record j = some rj → ri.frame = rj.frame →
    ∀ h, ri.undrained h = true → rj.undrained h = true → i = j

/-- R45 with what it rests on (R12, R44, R70): records have ids 0 to 15 and are the recall sets of their frames, the offer
fields of frames are the open offers of slots 0 to 7, and a frame with an open offer has no Recall Record. -/
def State.RecallLaw (s : State) : Prop :=
  s.OneRecallEach ∧
  (∀ id r, s.record id = some r → id < Config.recallCount) ∧
  (∀ f id, id ∈ (s.frame f).recallSet ↔ ∃ r, s.record id = some r ∧ r.frame = f) ∧
  (∀ i o, (s.offerSlot i).offer = some o →
    i < Config.offerCount ∧ (s.frame o.frame).offer = some ⟨i, (s.offerSlot i).serial⟩) ∧
  (∀ f hd, (s.frame f).offer = some hd →
    (s.frame f).recallSet = [] ∧ ∃ o, s.offerSlot hd.slot = ⟨hd.serial, some o⟩ ∧ o.frame = f) ∧
  (s.config = none → (∀ id, s.record id = none) ∧ ∀ i, (s.offerSlot i).offer = none)

/-- No moment of the Timebase has been passed (R160, R164, R165): a load under way ends by tick 100; the deadline of every
record (of ids 0 to 15) and open offer (of slots 0 to 7) is at most 65,535 ticks ahead of the counter, so none lies behind
it; and before there is a configuration there is none. -/
def State.NonePassed (s : State) : Prop :=
  (s.load = .loading → s.tick.toNat ≤ 100) ∧
  (∀ c, s.config = some c → c.grace ≤ 65535 ∧ c.lifetime ≤ 65535) ∧
  (∀ id r dl, s.record id = some r → r.deadline = some dl →
    id < Config.recallCount ∧ s.config ≠ none ∧ (dl - s.tick).toNat ≤ 65535) ∧
  (∀ i o, (s.offerSlot i).offer = some o →
    i < Config.offerCount ∧ s.config ≠ none ∧ (o.deadline - s.tick).toNat ≤ 65535)

/-! ### Departures -/

/-- What the start of a departure has made of state `s` (R30, R58, R84, R86, R91, R140, R147, R148): the host's port, unit
and waiting entry are cleared, its offers removed, its records FORCED with no target in NOTICE and no deadline, and a
departure record in phase DRAINING stands; its frames are as they were. In `u`, before the wait list is served, the other
party of each offer has its notice, in ascending order of the frame, and the flags of the targets that left NOTICE are set
and their drain checks asked; the list is served when the host's entry was its head. -/
def State.DepartureStarted (t s : State) (h : HostId) (cause : Cause) : Prop :=
  t.port h =
    { s.port h with
      portState := .leaving, linkUp := (t.port h).linkUp, queue := [], events := [], reserved := 0, noticeLost := false
      faults := [], eventIe := false, faultIe := false, hirq := false } ∧
  t.unit h = { s.unit h with windows := [], slots := [] } ∧
  t.departures = s.departures.set h (some ⟨cause, .draining⟩) ∧
  (∀ e ∈ t.waitList, e.host ≠ h) ∧ t.waiting.get h = 0 ∧
  (∀ i < Config.offerCount, t.offerSlot i =
    match (s.offerSlot i).offer with
    | some o => if o.giver = h ∨ o.recipient = h then ⟨(s.offerSlot i).serial + 1, none⟩ else s.offerSlot i
    | none => s.offerSlot i) ∧
  (∀ id r, id < Config.recallCount → s.record id = some r →
    t.record id = some (
      if r.requester = h then
        { r with
          forced := true
          deadline := none
          targets := PerHost.make (fun k =>
            if r.targets.get k = some .notice then some .closing else r.targets.get k) }
      else r)) ∧
  (∀ f, (s.frame f).owner = some h → f ∉ s.freeList →
    (t.frame f).owner = some h ∧ (t.frame f).access = (s.frame f).access ∧ (t.frame f).state = (s.frame f).state) ∧
  ∃ (u : State) (slots : List Nat),
    t = (if s.waitsAtHead h then u.serveWaitList else u) ∧
    u = { s with
          cmdPointer := u.cmdPointer, ports := u.ports, units := u.units, frames := u.frames, recalls := u.recalls
          offers := u.offers, drainChecks := u.drainChecks
          departures := s.departures.set h (some ⟨cause, .draining⟩)
          waitList := s.waitList.filter (fun e => e.host ≠ h), waiting := s.waiting.set h 0 } ∧
    slots.Nodup ∧
    (∀ i, i ∈ slots ↔ i < Config.offerCount ∧
      ∃ o, (s.offerSlot i).offer = some o ∧ (o.giver = h ∨ o.recipient = h)) ∧
    slots.Pairwise (fun i j => ∀ a b, (s.offerSlot i).offer = some a → (s.offerSlot j).offer = some b →
      a.frame ≤ b.frame) ∧
    (∀ k, k ≠ h → u.port k = slots.foldl (fun p i =>
      match (s.offerSlot i).offer with
      | some o =>
        if (if o.giver = h then o.recipient else o.giver) = k then
          p.postNotice (.offerClosed ⟨i, (s.offerSlot i).serial⟩ o.frame .partyLeft)
        else p
      | none => p) (s.port k)) ∧
    (∀ k, k ≠ h → u.unit k = s.unit k) ∧
    (∀ f, u.frame f = { s.frame f with offer := (u.frame f).offer, closing := (u.frame f).closing }) ∧
    (∀ f, ((∃ i o, i ∈ slots ∧ (s.offerSlot i).offer = some o ∧ o.frame = f) → (u.frame f).offer = none) ∧
      ((∀ i o, i ∈ slots → (s.offerSlot i).offer = some o → o.frame ≠ f) →
        (u.frame f).offer = (s.frame f).offer)) ∧
    (∀ f k, (u.frame f).closing.get k = true ↔ (s.frame f).closing.get k = true ∨
      ∃ id r, id < Config.recallCount ∧ s.record id = some r ∧ r.requester = h ∧ r.frame = f ∧
        r.targets.get k = some .notice) ∧
    ∀ k f, (k, f) ∈ u.drainChecks ↔ (k, f) ∈ s.drainChecks ∨
      ∃ id r, id < Config.recallCount ∧ s.record id = some r ∧ r.requester = h ∧ r.frame = f ∧
        r.targets.get k = some .notice ∧ ¬ (r.purpose = .free ∧ k = h ∧ r.othersDrained h = false)

end Sys2Proof.Machine
end

