-- ==== Sys2Proof/WellFormed.lean ====
section
/-! DEFINITION. Which terms of `Instr` are commands of the table: the operands are ones the link, the PROM or the
controller can give, and a control write is of its own row. -/

namespace Sys2Proof

open Machine

/-- The command is well formed. -/
def Instr.wellFormed : Instr → Bool
  | .alloc => true
  | .cancelAlloc => true
  | .setLabel => true
  | .setInherit => true
  | .queryFrame => true
  | .free => true
  | .grant => true
  | .revoke => true
  | .release => true
  | .offer => true
  | .accept => true
  | .decline => true
  | .withdraw => true
  | .setWindow => true
  | .clearWindow => true
  | .mapSlot => true
  | .unmapSlot => true
  | .queryHost => true
  | .leave => true
  | .badCommand => true
  | .staging _ w => w.touches regStaging 32
  | .submit _ w => w.touches regSubmit 4
  | .join _ w => w.touches regJoin 4
  | .eventPop _ len => accessLegal regEventPop len
  | .faultPop _ len => accessLegal regFaultPop len
  | .noticeLostClear _ w => w.clearsNoticeLost
  | .intEnable _ w => w.touches regIntEnable 1
  | .controlWrite _ w => !w.acts
  | .dataRequestArrival _ r => requestExpressible r
  | .poolGrant => true
  | .scrubWritePerformed => true
  | .readPerformed _ _ => true
  | .writePerformed _ _ => true
  | .drainCheck _ f => decide (f < 16384)
  | .graceExpiry _ => true
  | .offerExpiry _ => true
  | .tick => true
  | .loadTimeout => true
  | .imageReceived image => decide (image.length = 64)
  | .linkUp _ => true
  | .linkDown _ => true
  | .drainPhaseEnd _ => true
  | .sweepStep _ => true
  | .deviceReset => true
  | .resetDeassert _ => true

end Sys2Proof
end

