-- ==== Sys2Proof/Certificates/Slice0/Obligations.lean ====
section
/-! DEFINITION. The statements for the provers. -/

open Sys2Proof Sys2Proof.Machine

/-! ### The queue of commands -/

/-- The model's own queue (log entry 1): the command at the front runs on the state with the queue's rest. -/
def Obligations.StepRunsFrontCommand : Prop :=
  ∀ (c : Instr) (rest : List Instr) (s : State), s.pending = c :: rest →
    step s = exec c { s with pending := rest }

/-- Every command is answered by a next state in every state, and none touches the queue of waiting commands (log entries
1, 2 and 24). -/
def Obligations.EveryCommandRunsAndKeepsQueue : Prop :=
  ∀ (c : Instr) (s : State), ∃ t : State, exec c s = .next t ∧ t.pending = s.pending

/-! ### Takings -/

/-- R31 and R32: what the arbiter takes from; a taking removes the head, reserves an entry and moves the pointer on before
the command acts; without an eligible host there is no taking. -/
def Obligations.ArbiterRotates : Prop :=
  (∀ (s : State) (h : HostId) (raw : List Byte), s.picked = some (h, raw) →
    (s.port h).portState = .member ∧ (s.port h).events.length + (s.port h).reserved < 64 ∧
    (s.port h).queue = raw :: (s.port h).queue.tail ∧
    (∀ n : Fin 4, n < h - s.cmdPointer → (s.port (s.cmdPointer + n)).eligible = false) ∧
    s.beginTaking h =
      { s.setPort h { s.port h with queue := (s.port h).queue.tail, reserved := (s.port h).reserved + 1 } with
        cmdPointer := h + 1 } ∧
    ∀ (isRow : Byte → Bool) (act : HostId → Desc → State → State), isRow (Desc.ofBytes raw).code = true →
      taking isRow act s = .next (act h (Desc.ofBytes raw) (s.beginTaking h))) ∧
  (∀ s : State, s.picked = none → (∀ h, (s.port h).eligible = false) ∧
    ∀ c ∈ [Instr.alloc, .cancelAlloc, .setLabel, .setInherit, .queryFrame, .free, .grant, .revoke, .release, .offer,
      .accept, .decline, .withdraw, .setWindow, .clearWindow, .mapSlot, .unmapSlot, .queryHost, .leave, .badCommand],
      exec c s = .next s)

/-- R34 and R171: a field outside its values is answered BAD_ARGUMENT, and nothing else happens. -/
def Obligations.FieldsOutsideValues : Prop :=
  ∀ (s : State) (h : HostId) (d : Desc),
    (s.Takes h d codeAlloc → d.count = 0 ∨ 8 < d.count → exec .alloc s = .next (s.replied h d .badArgument)) ∧
    (s.Takes h d codeSetLabel → s.frameCount ≤ d.frame → exec .setLabel s = .next (s.replied h d .badArgument)) ∧
    (s.Takes h d codeSetInherit → s.frameCount ≤ d.frame →
      exec .setInherit s = .next (s.replied h d .badArgument)) ∧
    (s.Takes h d codeQueryFrame → s.frameCount ≤ d.frame →
      exec .queryFrame s = .next (s.replied h d .badArgument)) ∧
    (s.Takes h d codeFree → s.frameCount ≤ d.frame ∨ 1 < d.mode →
      exec .free s = .next (s.replied h d .badArgument)) ∧
    (s.Takes h d codeGrant → s.frameCount ≤ d.frame ∨ 3 < d.host ∨ d.level = 0 ∨ 2 < d.level →
      exec .grant s = .next (s.replied h d .badArgument)) ∧
    (s.Takes h d codeRevoke → s.frameCount ≤ d.frame ∨ 3 < d.host ∨ 1 < d.mode →
      exec .revoke s = .next (s.replied h d .badArgument)) ∧
    (s.Takes h d codeRelease → s.frameCount ≤ d.frame → exec .release s = .next (s.replied h d .badArgument)) ∧
    (s.Takes h d codeOffer → s.frameCount ≤ d.frame ∨ 3 < d.host ∨ 2 < d.level →
      exec .offer s = .next (s.replied h d .badArgument)) ∧
    (s.Takes h d codeSetWindow → 7 < d.window ∨ 14 < d.sizeCode ∨ 1 < d.windowMode →
      exec .setWindow s = .next (s.replied h d .badArgument)) ∧
    (s.Takes h d codeClearWindow → 7 < d.window → exec .clearWindow s = .next (s.replied h d .badArgument)) ∧
    (s.Takes h d codeMapSlot → 4095 < d.slot ∨ s.frameCount ≤ d.frame →
      exec .mapSlot s = .next (s.replied h d .badArgument)) ∧
    (s.Takes h d codeUnmapSlot → 4095 < d.slot → exec .unmapSlot s = .next (s.replied h d .badArgument))

/-- R34: a code that names no command is answered BAD_COMMAND with the tag and the code as written. -/
def Obligations.UnknownCodeAnswered : Prop :=
  ∀ (s : State) (h : HostId) (d : Desc) (code : Byte), s.Takes h d code → code = 0 ∨ 0x13 < code.toNat →
    exec .badCommand s = .next (s.answered h (.completion d.tag code .badCommand .none))

/-- R20: the cases of an ALLOC, in their order. -/
def Obligations.AllocTaken : Prop :=
  ∀ (s : State) (h : HostId) (d : Desc), s.Takes h d codeAlloc →
    let label := if d.labelPresent then some d.label else none
    exec .alloc s = .next (
      if d.count = 0 ∨ 8 < d.count then s.replied h d .badArgument
      else if s.quotaOf h < s.owned.get h + s.waiting.get h + d.count then s.replied h d .quota
      else if s.waitList = [] ∧ d.count ≤ s.freeList.length then
        (s.beginTaking h).allocService h d.tag d.count label d.inheritFlag
      else if d.wait = true ∧ (∃ e ∈ s.waitList, e.host = h) then s.replied h d .busy
      else if d.wait = true then
        { s.beginTaking h with
          waitList := s.waitList ++ [⟨h, d.tag, d.count, label, d.inheritFlag⟩]
          waiting := s.waiting.set h d.count }
      else s.answered h (d.reply .noFrames (.freeLength s.freeList.length)))

/-- R21: allocation service of a request of a member that holds the reservation of its ALLOC. -/
def Obligations.AllocationServed : Prop :=
  ∀ (s : State) (h : HostId) (tag : BitVec 16) (count : Nat) (label : Option (BitVec 16)) (inh : Bool),
    (s.port h).portState = .member → 0 < (s.port h).reserved →
    ∃ t : State, t = s.allocService h tag count label inh ∧
      (∀ f, t.frame f =
        if f ∈ s.freeList.take count then
          { s.frame f with
            state := .held, owner := some h, access := (PerHost.all Level.none).set h .rw, label := label
            inheritFlag := inh }
        else s.frame f) ∧
      t = { s.setPort h { s.port h with
              events := (s.port h).events ++ [.completion tag codeAlloc .ok (.frames (s.freeList.take count))]
              reserved := (s.port h).reserved - 1
              hirq := (s.port h).eventIe || ((s.port h).faultIe && !(s.port h).faults.isEmpty) } with
            freeList := s.freeList.drop count
            owned := s.owned.set h (s.owned.get h + count)
            frames := t.frames }

/-- R23: allocation service on the Allocation Wait List, one entry and then the rest. -/
def Obligations.WaitListServedFromHead : Prop :=
  ∀ (s : State), (s.waitList = [] → s.serveWaitList = s) ∧
    ∀ e rest, s.waitList = e :: rest →
      (s.freeList.length < e.count → s.serveWaitList = s) ∧
      (e.count ≤ s.freeList.length →
        s.serveWaitList =
          ({ s with waitList := rest, waiting := s.waiting.set e.host 0 }.allocService e.host e.tag e.count e.label
            e.inheritFlag).serveWaitList)

/-- R24: CANCEL_ALLOC. -/
def Obligations.CancelAllocTaken : Prop :=
  ∀ (s : State) (h : HostId) (d : Desc), s.Takes h d codeCancelAlloc →
    ((∀ e, s.waitEntry h = some e → e.tag ≠ d.tag) → exec .cancelAlloc s = .next (s.replied h d .notFound)) ∧
    (∀ e, s.waitEntry h = some e → e.tag = d.tag → 0 < (s.port h).reserved →
      ∃ t : State, exec .cancelAlloc s = .next (if s.waitsAtHead h then t.serveWaitList else t) ∧
        t = { s.setPort h { s.port h with
                queue := (s.port h).queue.tail
                reserved := (s.port h).reserved - 1
                events := (s.port h).events ++
                  [Event.completion d.tag codeAlloc .cancelled .none, Event.completion d.tag codeCancelAlloc .ok .none]
              }.refreshHirq with
              cmdPointer := h + 1
              waitList := s.waitList.filter (fun x => x.host ≠ h)
              waiting := s.waiting.set h 0 })

/-- R25 and R26: SET_LABEL and SET_INHERIT. -/
def Obligations.OwnerSetsLabelAndInherit : Prop :=
  ∀ (s : State) (h : HostId) (d : Desc),
    let refusal :=
      if s.frameCount ≤ d.frame then some Result.badArgument
      else if s.ownerLeaving d.frame then some .ownerLeaving
      else if (s.frame d.frame).owner ≠ some h then some .notOwner
      else if (s.frame d.frame).state ≠ .held then some .wrongState
      else none
    (s.Takes h d codeSetLabel →
      exec .setLabel s = .next (
        match refusal with
        | some r => s.replied h d r
        | none => (s.replied h d .ok).setFrame d.frame
          { s.frame d.frame with label := if d.labelPresent then some d.label else none })) ∧
    (s.Takes h d codeSetInherit →
      exec .setInherit s = .next (
        match refusal with
        | some r => s.replied h d r
        | none => (s.replied h d .ok).setFrame d.frame { s.frame d.frame with inheritFlag := d.inheritFlag }))

/-- R27 and R41: QUERY_FRAME and QUERY_HOST report and change nothing. -/
def Obligations.QueriesReport : Prop :=
  ∀ (s : State) (h : HostId) (d : Desc),
    (s.Takes h d codeQueryFrame →
      exec .queryFrame s = .next (
        if s.frameCount ≤ d.frame then s.replied h d .badArgument
        else s.answered h (d.reply .ok (.snapshot d.frame (s.frame d.frame))))) ∧
    (∀ c, s.config = some c → s.Takes h d codeQueryHost →
      exec .queryHost s = .next (s.answered h (d.reply .ok (.figures
        { owned := s.owned.get h, quota := c.quota.get h, waiting := s.waiting.get h
          members := PerHost.make (fun k => decide ((s.port k).portState = .member))
          freeLength := s.freeList.length, scrubLength := s.scrubQueue.length, load := s.load, frames := c.frames
          grace := c.grace, lifetime := c.lifetime }))))

/-! ### Grants and recall -/

/-- R53 and R54: GRANT. -/
def Obligations.GrantTaken : Prop :=
  ∀ (s : State) (h g : HostId) (d : Desc) (level : Level), s.Takes h d codeGrant → d.frame < s.frameCount →
    hostOfNat d.host = some g → levelOfNat d.level = some level → level ≠ .none →
    exec .grant s = .next (
      if s.ownerLeaving d.frame then s.replied h d .ownerLeaving
      else if (s.frame d.frame).owner ≠ some h then s.replied h d .notOwner
      else if (s.frame d.frame).state ≠ .held then s.replied h d .wrongState
      else if g = h then s.replied h d .badArgument
      else if (s.port g).portState ≠ .member then s.replied h d .hostAbsent
      else if (s.frame d.frame).offer ≠ none ∨ (s.recallOf d.frame g).isSome then s.replied h d .busy
      else if level = .read ∧ (s.frame d.frame).access.get g = .rw then s.replied h d .wrongState
      else if (s.frame d.frame).access.get g = level then s.replied h d .ok
      else
        ((s.replied h d .ok).setFrame d.frame
            { s.frame d.frame with access := (s.frame d.frame).access.set g level }).setPort g
          ((s.port g).postNotice (.granted d.frame h level (s.frame d.frame).label)))

/-- R44, R46 and R47: what the creation of a Recall Record does. -/
def Obligations.RecordOpened : Prop :=
  ∀ (s : State) (id : Nat) (r : RecallRecord),
    ∃ t : State, t = s.openRecord id r ∧
      (∀ j, t.record j = if j = id then some r else s.record j) ∧
      (∀ f, t.frame f =
        if f = r.frame then
          { s.frame f with
            recallSet := joinRecallSet id (s.frame f).recallSet
            closing := PerHost.make (fun k => (s.frame f).closing.get k || decide (r.targets.get k = some .closing)) }
        else s.frame f) ∧
      (∀ k, t.port k =
        match r.deadline with
        | some dl =>
          if r.targets.get k = some .notice ∧ ¬ (r.purpose = .free ∧ r.requester = k) then
            (s.port k).postNotice (.recallNotice r.frame id (dl - s.tick).toNat)
          else s.port k
        | none => s.port k) ∧
      (∀ k f, (k, f) ∈ t.drainChecks ↔ (k, f) ∈ s.drainChecks ∨
        (f = r.frame ∧ r.targets.get k = some .closing ∧
          ¬ (r.purpose = .free ∧ r.requester = k ∧ r.othersDrained k = false))) ∧
      t = { s with ports := t.ports, frames := t.frames, recalls := t.recalls, drainChecks := t.drainChecks }

/-- R47, R51, R58 and R66: targets of a record leave NOTICE for CLOSING, by release, expiry or upgrade. -/
def Obligations.TargetsCloseTogether : Prop :=
  ∀ (s : State) (id : Nat) (r : RecallRecord) (sel : HostId → Bool),
    ∃ (n : RecallRecord) (t : State), n = r.close sel ∧ t = s.moveRecord id r n ∧
      n = { r with targets := n.targets, deadline := n.deadline } ∧
      (∀ k, n.targets.get k =
        if r.targets.get k = some .notice ∧ (sel k = true ∨ (r.purpose = .free ∧ r.requester = k ∧
            ∀ j, j ≠ k → r.targets.get j = some .notice → sel j = true)) then some .closing
        else r.targets.get k) ∧
      n.deadline = (if ∃ k, n.targets.get k = some .notice then r.deadline else none) ∧
      (∀ j, t.record j = if j = id then some n else s.record j) ∧
      (∀ f, t.frame f =
        if f = r.frame then
          { s.frame f with
            closing := PerHost.make (fun k => (s.frame f).closing.get k ||
              decide (n.targets.get k = some .closing ∧ r.targets.get k ≠ some .closing)) }
        else s.frame f) ∧
      (∀ k f, (k, f) ∈ t.drainChecks ↔ (k, f) ∈ s.drainChecks ∨
        (f = r.frame ∧ n.targets.get k = some .closing ∧ r.targets.get k ≠ some .closing ∧
          ¬ (r.purpose = .free ∧ r.requester = k ∧ r.othersDrained k = false))) ∧
      t = { s with frames := t.frames, recalls := t.recalls, drainChecks := t.drainChecks } ∧
      (s.record id = some r →
        s.upgradeRecord id = s.moveRecord id r { r.close (fun _ => true) with forced := true })

/-- R51, R55, R56 and R57: REVOKE. -/
def Obligations.RevokeTaken : Prop :=
  ∀ (s : State) (h g : HostId) (d : Desc), s.Takes h d codeRevoke → d.frame < s.frameCount →
    hostOfNat d.host = some g → d.mode ≤ 1 →
    (∀ r, (if s.ownerLeaving d.frame then some Result.ownerLeaving
        else if (s.frame d.frame).owner ≠ some h then some .notOwner
        else if (s.frame d.frame).state ≠ .held then some .wrongState
        else if g = h then some .badArgument
        else if (s.frame d.frame).access.get g = .none then some .noAccess
        else if (s.port g).portState = .leaving then some .hostAbsent
        else if (s.frame d.frame).offer ≠ none then some .busy
        else none) = some r → exec .revoke s = .next (s.replied h d r)) ∧
    (s.ownerLeaving d.frame = false → (s.frame d.frame).owner = some h → (s.frame d.frame).state = .held → g ≠ h →
      (s.frame d.frame).access.get g ≠ .none → (s.port g).portState = .member → (s.frame d.frame).offer = none →
      (∀ id r p, s.Recalled d.frame g id r p → (p = .closing ∨ d.mode = 0) →
        exec .revoke s = .next (s.replied h d .busy)) ∧
      (∀ id r, s.Recalled d.frame g id r .notice → d.mode = 1 →
        exec .revoke s = .next ((s.replied h d .ok).upgradeRecord id)) ∧
      (s.recallOf d.frame g = none → s.freeRecordId = none → exec .revoke s = .next (s.replied h d .noRecord)) ∧
      (∀ id, s.recallOf d.frame g = none → s.freeRecordId = some id → d.mode = 1 →
        exec .revoke s = .next ((s.beginTaking h).openRecord id
          ⟨d.frame, .revoke, h, d.tag, true, (PerHost.all none).set g (some .closing), none⟩)) ∧
      (∀ id c, s.recallOf d.frame g = none → s.freeRecordId = some id → d.mode = 0 → s.config = some c →
        exec .revoke s = .next ((s.beginTaking h).openRecord id
          ⟨d.frame, .revoke, h, d.tag, false, (PerHost.all none).set g (some .notice),
            some (s.tick + BitVec.ofNat 32 (if d.time = 0 then c.grace else d.time))⟩)))

/-- R59, R60, R61 and R62: RELEASE. That a host with access NONE is answered NO_ACCESS, as R59 says, and not OWNER_LEAVING also
when the frame's owner is LEAVING is the model's reading beside R35 and R40 (log entry 29). -/
def Obligations.ReleaseTaken : Prop :=
  ∀ (s : State) (h : HostId) (d : Desc), s.Takes h d codeRelease → d.frame < s.frameCount →
    ((s.frame d.frame).owner = some h → exec .release s = .next (s.replied h d .isOwner)) ∧
    ((s.frame d.frame).owner ≠ some h →
      (∀ id r, s.Recalled d.frame h id r .notice →
        exec .release s = .next ((s.replied h d .ok).moveRecord id r (r.close (fun k => k = h)))) ∧
      (∀ id r, s.Recalled d.frame h id r .closing → exec .release s = .next (s.replied h d .late)) ∧
      (s.recallOf d.frame h = none →
        exec .release s = .next (
          if (s.frame d.frame).closing.get h then s.replied h d .late
          else if (s.frame d.frame).access.get h = .none then s.replied h d .noAccess
          else if (s.frame d.frame).offer ≠ none then s.replied h d .busy
          else
            match s.freeRecordId with
            | none => s.replied h d .noRecord
            | some id => (s.beginTaking h).openRecord id
                ⟨d.frame, .release, h, d.tag, true, (PerHost.all none).set h (some .closing), none⟩)))

/-- R63, R64 and R65: FREE. -/
def Obligations.FreeTaken : Prop :=
  ∀ (s : State) (h : HostId) (d : Desc) (c : Configuration), s.Takes h d codeFree → d.frame < s.frameCount →
    d.mode ≤ 1 → s.config = some c →
    (∀ r, (if s.ownerLeaving d.frame then some Result.ownerLeaving
      else if (s.frame d.frame).owner ≠ some h then some .notOwner
      else if (s.frame d.frame).state ≠ .held then some .wrongState
      else if (s.frame d.frame).recallSet ≠ [] then some .busy
      else if s.freeRecordId = none then some .noRecord
      else none) = some r → exec .free s = .next (s.replied h d r)) ∧
    (∀ id, s.ownerLeaving d.frame = false → (s.frame d.frame).owner = some h →
    (s.frame d.frame).access.get h = .rw → (s.frame d.frame).state = .held → (s.frame d.frame).recallSet = [] →
    s.freeRecordId = some id →
    ∃ (r : RecallRecord) (t : State), exec .free s = .next (t.openRecord id r) ∧
      r.frame = d.frame ∧ r.purpose = .free ∧ r.requester = h ∧ r.tag = d.tag ∧ (r.forced = true ↔ d.mode = 1) ∧
      (∀ k, k ≠ h → r.targets.get k =
        if (s.frame d.frame).access.get k = .none then none
        else if d.mode = 0 ∧ (s.port k).portState = .member then some .notice
        else some .closing) ∧
      r.targets.get h = (if ∃ k, k ≠ h ∧ r.targets.get k = some .notice then some .notice else some .closing) ∧
      r.deadline = (if ∃ k, r.targets.get k = some .notice then
        some (s.tick + BitVec.ofNat 32 (if d.time = 0 then c.grace else d.time)) else none) ∧
      ((s.frame d.frame).offer = none →
        t = (s.beginTaking h).setFrame d.frame { s.frame d.frame with state := .freeing }) ∧
      (∀ i serial o, (s.frame d.frame).offer = some ⟨i, serial⟩ → s.offerSlot i = ⟨serial, some o⟩ →
        o.frame = d.frame → o.recipient ≠ h →
        t = (((s.beginTaking h).setOfferSlot i ⟨serial + 1, none⟩).setFrame d.frame
              { s.frame d.frame with state := .freeing, offer := none }).setPort o.recipient
            ((s.port o.recipient).postNotice (.offerClosed ⟨i, serial⟩ d.frame .withdrawn))))

/-! ### Ownership handover -/

/-- R72 and R73: OFFER. -/
def Obligations.OfferTaken : Prop :=
  ∀ (s : State) (h g : HostId) (d : Desc) (residual : Level) (c : Configuration), s.Takes h d codeOffer →
    d.frame < s.frameCount → hostOfNat d.host = some g → levelOfNat d.level = some residual → s.config = some c →
    exec .offer s = .next (
      if s.ownerLeaving d.frame then s.replied h d .ownerLeaving
      else if (s.frame d.frame).owner ≠ some h then s.replied h d .notOwner
      else if (s.frame d.frame).state ≠ .held then s.replied h d .wrongState
      else if g = h then s.replied h d .badArgument
      else if (s.port g).portState ≠ .member then s.replied h d .hostAbsent
      else if (s.frame d.frame).offer ≠ none ∨ (s.frame d.frame).recallSet ≠ [] then s.replied h d .busy
      else
        match s.freeOfferSlot with
        | none => s.replied h d .noRecord
        | some i =>
          let serial := (s.offerSlot i).serial
          let lifetime := if d.time = 0 then c.lifetime else d.time
          (((s.answered h (d.reply .ok (.handle ⟨i, serial⟩))).setOfferSlot i
              ⟨serial, some ⟨d.frame, h, g, residual, s.tick + BitVec.ofNat 32 lifetime⟩⟩).setFrame d.frame
              { s.frame d.frame with offer := some ⟨i, serial⟩ }).setPort g
            ((s.port g).postNotice (.offerReceived ⟨i, serial⟩ d.frame h residual (s.frame d.frame).label
              (lifetime % 2 ^ 32))))

/-- R44, R45, R70 and R153: what the searches of the tables find: the lowest-numbered free Offer Table slot, the
lowest-numbered free record id, the open offer a handle names, the record that withdraws a host's access, and the heir. -/
def Obligations.SearchesFindTheLowest : Prop :=
  ∀ (s : State),
    (∀ i, s.freeOfferSlot = some i ↔ i < 8 ∧ (s.offerSlot i).offer = none ∧ ∀ j < i, (s.offerSlot j).offer ≠ none) ∧
    (s.freeOfferSlot = none ↔ ∀ i < 8, (s.offerSlot i).offer ≠ none) ∧
    (∀ id, s.freeRecordId = some id ↔ id < 16 ∧ s.record id = none ∧ ∀ j < id, s.record j ≠ none) ∧
    (s.freeRecordId = none ↔ ∀ id < 16, s.record id ≠ none) ∧
    (∀ hd o, s.openOffer hd = some o ↔ hd.slot < 8 ∧ s.offerSlot hd.slot = ⟨hd.serial, some o⟩) ∧
    (∀ f h id, s.recallOf f h = some id → id < 16 ∧ ∃ r, s.record id = some r ∧ r.frame = f ∧
      (r.targets.get h = some .notice ∨ r.targets.get h = some .closing)) ∧
    (∀ f h, s.recallOf f h = none ↔ ∀ id r, id < 16 → s.record id = some r → r.frame = f →
      r.targets.get h ≠ some .notice ∧ r.targets.get h ≠ some .closing) ∧
    (∀ f h k, s.heirOf f h = some k →
      k ≠ h ∧ (s.port k).portState = .member ∧ (s.frame f).access.get k = .rw ∧
      s.owned.get k + s.waiting.get k < s.quotaOf k ∧
      ∀ j, j < k → j ≠ h → (s.port j).portState = .member → (s.frame f).access.get j = .rw →
        s.quotaOf j ≤ s.owned.get j + s.waiting.get j) ∧
    (∀ f h, s.heirOf f h = none → ∀ j, j ≠ h → (s.port j).portState = .member → (s.frame f).access.get j = .rw →
      s.quotaOf j ≤ s.owned.get j + s.waiting.get j)

/-- R75: the refusals of ACCEPT. -/
def Obligations.AcceptRefused : Prop :=
  ∀ (s : State) (h : HostId) (d : Desc), s.Takes h d codeAccept →
    (s.openOffer d.handle = none → exec .accept s = .next (s.replied h d .gone)) ∧
    (∀ o, s.openOffer d.handle = some o →
      (o.recipient ≠ h → exec .accept s = .next (s.replied h d .badArgument)) ∧
      (o.recipient = h → s.quotaOf h < s.owned.get h + s.waiting.get h + 1 →
        exec .accept s = .next (s.replied h d .quota)) ∧
      (o.recipient = h → s.owned.get h + s.waiting.get h + 1 ≤ s.quotaOf h → o.residual = .none →
        s.freeRecordId = none → exec .accept s = .next (s.replied h d .noRecord)))

/-- R76, R77, R78 and R79: an ACCEPT that passes its checks. -/
def Obligations.AcceptMovesOwnership : Prop :=
  ∀ (s : State) (h : HostId) (d : Desc) (o : Offer), s.Takes h d codeAccept → s.openOffer d.handle = some o →
    o.recipient = h → o.giver ≠ h → s.owned.get h + s.waiting.get h + 1 ≤ s.quotaOf h →
    ∃ t : State, (∀ f, t.frame f =
        if f = o.frame then
          { s.frame f with
            owner := some h, offer := none
            access := ((s.frame f).access.set o.giver
              (if o.residual = .none then (s.frame f).access.get o.giver else o.residual)).set h .rw }
        else s.frame f) ∧
      (∀ k, t.port k =
        if k = h then
          (if o.residual = .none then (s.beginTaking h).port h else (s.replied h d .ok).port h)
        else if k = o.giver then (s.port k).postNotice (.offerClosed d.handle o.frame .accepted)
        else if (s.frame o.frame).access.get k ≠ .none then (s.port k).postNotice (.ownerChanged o.frame h .offer)
        else s.port k) ∧
      (∀ i, t.offerSlot i =
        if i = d.handle.slot then ⟨(s.offerSlot i).serial + 1, none⟩ else s.offerSlot i) ∧
      t = { s with
            ports := t.ports, frames := t.frames, offers := t.offers, cmdPointer := h + 1
            owned := (s.owned.set o.giver (s.owned.get o.giver - 1)).set h (s.owned.get h + 1) } ∧
      (o.residual ≠ .none → exec .accept s = .next t) ∧
      (∀ id, o.residual = .none → s.freeRecordId = some id →
        exec .accept s = .next (t.openRecord id
          ⟨o.frame, .handover, h, d.tag, true, (PerHost.all none).set o.giver (some .closing), none⟩))

/-- R71, R80 and R81: DECLINE and WITHDRAW. -/
def Obligations.OfferClosedByAParty : Prop :=
  ∀ (s : State) (h : HostId) (d : Desc),
    (s.Takes h d codeDecline → s.openOffer d.handle = none → exec .decline s = .next (s.replied h d .gone)) ∧
    (s.Takes h d codeWithdraw → s.openOffer d.handle = none → exec .withdraw s = .next (s.replied h d .gone)) ∧
    (∀ o, s.openOffer d.handle = some o →
      (s.Takes h d codeDecline → o.recipient ≠ h → exec .decline s = .next (s.replied h d .badArgument)) ∧
      (s.Takes h d codeWithdraw → o.giver ≠ h → exec .withdraw s = .next (s.replied h d .badArgument)) ∧
      (s.Takes h d codeDecline → o.recipient = h → o.giver ≠ h →
        exec .decline s = .next ((((s.replied h d .ok).setOfferSlot d.handle.slot ⟨d.handle.serial + 1, none⟩).setFrame
            o.frame { s.frame o.frame with offer := none }).setPort o.giver
          ((s.port o.giver).postNotice (.offerClosed d.handle o.frame .declined)))) ∧
      (s.Takes h d codeWithdraw → o.giver = h → o.recipient ≠ h →
        exec .withdraw s = .next ((((s.replied h d .ok).setOfferSlot d.handle.slot ⟨d.handle.serial + 1, none⟩).setFrame
            o.frame { s.frame o.frame with offer := none }).setPort o.recipient
          ((s.port o.recipient).postNotice (.offerClosed d.handle o.frame .withdrawn)))))

/-! ### Windows and slots -/

/-- R88 and R89: SET_WINDOW. -/
def Obligations.SetWindowTaken : Prop :=
  ∀ (s : State) (h : HostId) (d : Desc), s.Takes h d codeSetWindow →
    (∀ r, (if 7 < d.window ∨ 14 < d.sizeCode ∨ 1 < d.windowMode then some Result.badArgument
        else if ((s.unit h).window d.window).isSome then some .busy
        else if d.base % (65536 * 2 ^ d.sizeCode) ≠ 0 then some .badArgument
        else if 64 * 2 ^ 30 ≤ d.base then some .badArgument
        else if d.windowMode = 0 ∧ s.frameCount < d.first + 2 ^ d.sizeCode then some .badArgument
        else if d.windowMode = 1 ∧ 4096 < d.first + 2 ^ d.sizeCode then some .badArgument
        else none) = some r → exec .setWindow s = .next (s.replied h d r)) ∧
    (d.window ≤ 7 → d.sizeCode ≤ 14 → d.windowMode ≤ 1 → (s.unit h).window d.window = none →
      d.base % (65536 * 2 ^ d.sizeCode) = 0 → d.base < 64 * 2 ^ 30 →
      (d.windowMode = 0 → d.first + 2 ^ d.sizeCode ≤ s.frameCount) →
      (d.windowMode = 1 → d.first + 2 ^ d.sizeCode ≤ 4096) →
      ((∃ i w a, i < 8 ∧ (s.unit h).window i = some w ∧ d.base ≤ a ∧ a < d.base + 65536 * 2 ^ d.sizeCode ∧
          w.base ≤ a ∧ a < w.base + 65536 * 2 ^ w.sizeCode) →
        exec .setWindow s = .next (s.replied h d .overlap)) ∧
      ((∀ i w a, i < 8 → (s.unit h).window i = some w → d.base ≤ a → a < d.base + 65536 * 2 ^ d.sizeCode →
          ¬ (w.base ≤ a ∧ a < w.base + 65536 * 2 ^ w.sizeCode)) →
        exec .setWindow s = .next ((s.replied h d .ok).setUnit h
          { s.unit h with
            windows := Table.set none (s.unit h).windows d.window
              (some ⟨d.base, d.sizeCode, if d.windowMode = 0 then .direct d.first else .mapped d.first,
                d.writable⟩) })))

/-- R90 and R94: CLEAR_WINDOW and UNMAP_SLOT. -/
def Obligations.WindowAndSlotEmptied : Prop :=
  ∀ (s : State) (h : HostId) (d : Desc),
    (s.Takes h d codeClearWindow →
      exec .clearWindow s = .next (
        if 7 < d.window then s.replied h d .badArgument
        else (s.replied h d .ok).setUnit h
          { s.unit h with windows := Table.set none (s.unit h).windows d.window none })) ∧
    (s.Takes h d codeUnmapSlot →
      exec .unmapSlot s = .next (
        if 4095 < d.slot then s.replied h d .badArgument
        else (s.replied h d .ok).setUnit h
          { s.unit h with slots := Table.set none (s.unit h).slots d.slot none }))

/-- R92 and R93: MAP_SLOT. -/
def Obligations.MapSlotTaken : Prop :=
  ∀ (s : State) (h : HostId) (d : Desc), s.Takes h d codeMapSlot →
    exec .mapSlot s = .next (
      if 4095 < d.slot ∨ s.frameCount ≤ d.frame then s.replied h d .badArgument
      else if s.ownerLeaving d.frame then s.replied h d .ownerLeaving
      else if (s.frame d.frame).access.get h = .none then s.replied h d .noAccess
      else if (s.frame d.frame).state ≠ .held then s.replied h d .wrongState
      else (s.replied h d .ok).setUnit h
        { s.unit h with
          slots := Table.set none (s.unit h).slots d.slot (some ⟨d.frame, (s.frame d.frame).generation⟩) })

/-! ### Control accesses -/

/-- R28: a control write to the staging area. -/
def Obligations.StagingWritten : Prop :=
  ∀ (s : State) (h : HostId) (w : ControlWrite), s.delivers h = true →
    ∃ bytes, exec (.staging h w) s = .next (s.setPort h { s.port h with staging := bytes }) ∧
      bytes.length = (s.port h).staging.length ∧
      ∀ i, i < bytes.length → byteAt bytes i = (w.byteAt (0x200 + i)).getD (byteAt (s.port h).staging i)

/-- R29: a submission. -/
def Obligations.SubmissionDecided : Prop :=
  ∀ (s : State) (h : HostId) (w : ControlWrite), s.delivers h = true → w.touches regSubmit 4 = true →
    exec (.submit h w) s = .next (s.setPort h (
      if (s.port h).portState ≠ .member then { s.port h with submitStatus := .notMember }
      else if (s.port h).queue.length < 16 then
        { s.port h with queue := (s.port h).queue ++ [(s.port h).staging], submitStatus := .accepted }
      else { s.port h with submitStatus := .queueFull }))

/-- R145 and R146: a join request. -/
def Obligations.JoinRequestDecided : Prop :=
  ∀ (s : State) (h : HostId) (w : ControlWrite), s.delivers h = true → w.touches regJoin 4 = true →
    (∀ st, (if (s.port h).portState ≠ .attached then some JoinStatus.notAttached
        else if s.load = .loading then some .notReady
        else if ∃ c, s.config = some c ∧ c.enabled.get h = false then some .hostDisabled
        else none) = some st →
      exec (.join h w) s = .next (s.setPort h { s.port h with joinStatus := st })) ∧
    (∀ c, (s.port h).portState = .attached → s.load ≠ .loading → s.config = some c → c.enabled.get h = true →
      ∃ t : State, exec (.join h w) s = .next t ∧
        (∀ k, t.port k =
          if k = h then { s.port h with portState := .member, joinStatus := .joined }
          else (s.port k).postNotice (.hostJoined h)) ∧
        t = { s with ports := t.ports })

/-- R133, R137 and R170: the reads of EVENT_POP and FAULT_POP. -/
def Obligations.PopsRemoveTheHead : Prop :=
  ∀ (s : State) (h : HostId) (len : Nat), s.delivers h = true → len % 4 = 0 → 4 ≤ len → len ≤ 32 →
    (exec (.eventPop h len) s = .next (
      match (s.port h).events with
      | [] => s.setPort h { s.port h with
          sent := (s.port h).sent ++ [.controlRead .ok (List.replicate len 0)] }
      | e :: rest => s.setPort h { { s.port h with events := rest }.refreshHirq with
          sent := (s.port h).sent ++
            [.controlRead .ok (BitVec.ofNat 8 e.kindCode :: List.replicate (len - 1) 0)] })) ∧
    (exec (.faultPop h len) s = .next (
      match (s.port h).faults with
      | [] => s.setPort h { s.port h with
          sent := (s.port h).sent ++ [.controlRead .ok (List.replicate len 0)] }
      | r :: rest => s.setPort h { { s.port h with faults := rest }.refreshHirq with
          sent := (s.port h).sent ++
            [.controlRead .ok (BitVec.ofNat 8 r.kind.code :: List.replicate (len - 1) 0)] }))

/-- R132, R138, R139 and R169: the writes to NOTICE_LOST_CLEAR and INT_ENABLE. -/
def Obligations.ClearAndEnableWritten : Prop :=
  ∀ (s : State) (h : HostId) (w : ControlWrite) (v : Byte), s.delivers h = true →
    (w.byteAt 0x0C0 = some v →
      exec (.noticeLostClear h w) s = .next (
        if v.getLsbD 0 then
          s.setPort h { s.port h with
            noticeLost := false
            hirq := ((s.port h).eventIe && !(s.port h).events.isEmpty) ||
              ((s.port h).faultIe && !(s.port h).faults.isEmpty) }
        else s)) ∧
    (w.byteAt 0x0A0 = some v →
      exec (.intEnable h w) s = .next (s.setPort h { s.port h with
        eventIe := v.getLsbD 0
        faultIe := v.getLsbD 1
        hirq := (v.getLsbD 0 && (!(s.port h).events.isEmpty || (s.port h).noticeLost)) ||
          (v.getLsbD 1 && !(s.port h).faults.isEmpty) }))

/-- R167: a control write that enables no writable byte changes nothing, and while a link delivers nothing no control access
and no data request has an effect (log entry 2). -/
def Obligations.AccessesWithoutEffect : Prop :=
  ∀ (s : State) (h : HostId) (w : ControlWrite) (len : Nat) (r : DataRequest),
    exec (.controlWrite h w) s = .next s ∧
    ((∀ a, w.byteAt a = none) → exec (.staging h w) s = .next s ∧ exec (.submit h w) s = .next s ∧
      exec (.join h w) s = .next s ∧ exec (.noticeLostClear h w) s = .next s ∧ exec (.intEnable h w) s = .next s) ∧
    (s.delivers h = false → ∀ c ∈ [Instr.staging h w, .submit h w, .join h w, .eventPop h len, .faultPop h len,
      .noticeLostClear h w, .intEnable h w, .dataRequestArrival h r], exec c s = .next s)

/-! ### Posting -/

/-- R130, R135 and R139: what becomes of a notice and of a fault report at a port. -/
def Obligations.NoticesAndFaultsPosted : Prop :=
  ∀ (p : HostPort) (e : Event) (r : FaultRecord),
    (p.portState ≠ .member → p.postNotice e = p ∧ p.reportFault r = p) ∧
    (p.portState = .member → p.events.length + p.reserved < 64 →
      p.postNotice e = { p with
        events := p.events ++ [e], hirq := p.eventIe || (p.faultIe && !p.faults.isEmpty) }) ∧
    (p.portState = .member → 64 ≤ p.events.length + p.reserved →
      p.postNotice e = { p with noticeLost := true, hirq := p.eventIe || (p.faultIe && !p.faults.isEmpty) }) ∧
    (p.portState = .member → p.faults.length < 8 →
      p.reportFault r = { p with
        faults := p.faults ++ [r]
        hirq := (p.eventIe && (!p.events.isEmpty || p.noticeLost)) || p.faultIe }) ∧
    (∀ older newest, p.portState = .member → p.faults = older ++ [newest] → 8 ≤ p.faults.length →
      p.reportFault r = { p with
        faults := older ++ [{ newest with suppressed := min 255 (newest.suppressed + 1) }]
        hirq := (p.eventIe && (!p.events.isEmpty || p.noticeLost)) || p.faultIe })

/-! ### The access path -/

/-- R95 to R102: the tests of the access check, in their order. -/
def Obligations.AccessCheckInOrder : Prop :=
  ∀ (s : State) (h : HostId) (a : Access) (address : Nat),
    ((s.port h).portState ≠ .member → s.accessCheck h a address = .notMember) ∧
    ((s.port h).portState = .member →
      (∀ i w, i < 8 → (s.unit h).window i = some w → ¬ (w.base ≤ address ∧ address < w.base + 65536 * 2 ^ w.sizeCode)) →
      s.accessCheck h a address = .fault .noWindow none none) ∧
    (∀ i w, (s.port h).portState = .member → i < 8 → (s.unit h).window i = some w → w.base ≤ address →
      address < w.base + 65536 * 2 ^ w.sizeCode →
      (∀ j v, j < i → (s.unit h).window j = some v → ¬ (v.base ≤ address ∧ address < v.base + 65536 * 2 ^ v.sizeCode)) →
      (a.isWrite = true → w.writable = false → s.accessCheck h a address = .fault .readOnlyWindow (some i) none) ∧
      (¬ (a.isWrite = true ∧ w.writable = false) →
        (∀ base, w.map = .mapped base → (s.unit h).slot (base + (address - w.base) / 65536) = none →
          s.accessCheck h a address = .fault .emptySlot (some i) none) ∧
        (∀ base f g, w.map = .mapped base → (s.unit h).slot (base + (address - w.base) / 65536) = some ⟨f, g⟩ →
          g ≠ (s.frame f).generation → s.accessCheck h a address = .fault .staleSlot (some i) (some f)) ∧
        (∀ f, ((∃ first, w.map = .direct first ∧ f = first + (address - w.base) / 65536) ∨
            (∃ base, w.map = .mapped base ∧
              (s.unit h).slot (base + (address - w.base) / 65536) = some ⟨f, (s.frame f).generation⟩)) →
          s.accessCheck h a address =
            if (s.frame f).state = .free ∨ (s.frame f).state = .scrubbing then .fault .frameState (some i) (some f)
            else if (s.frame f).access.get h = .none ∨ (a.isWrite = true ∧ (s.frame f).access.get h = .read) then
              .fault .noRights (some i) (some f)
            else if (s.frame f).closing.get h = true then .fault .recalled (some i) (some f)
            else .pass f ((address - w.base) % 65536))))

/-- R103, R109, R110 and R111: the arrival of a data request. -/
def Obligations.DataRequestArrives : Prop :=
  ∀ (s : State) (h : HostId) (r : DataRequest), s.delivers h = true → requestExpressible r = true →
    let address := r.block.toNat * 128 + r.firstWord.val * 4
    let length := (r.lastWord.val - r.firstWord.val + 1) * 4
    let refusal : LinkMessage :=
      if r.access.isWrite then .creditReturn r.tag
      else .readCompletion r.tag .accessFault (List.replicate length 0xFF)
    ((∃ e ∈ (s.unit h).ort, e.tag = r.tag) →
      exec (.dataRequestArrival h r) s = .next (s.setPort h
        ((s.port h).reportFault ⟨.creditViolation, r.access.isWrite, address, length, none, none, 0⟩))) ∧
    ((∀ e ∈ (s.unit h).ort, e.tag ≠ r.tag) →
      (s.accessCheck h r.access address = .notMember →
        exec (.dataRequestArrival h r) s = .next (s.setPort h { s.port h with
          sent := (s.port h).sent ++ [refusal] })) ∧
      (∀ kind window frame, s.accessCheck h r.access address = .fault kind window frame →
        exec (.dataRequestArrival h r) s = .next (s.setPort h {
          (s.port h).reportFault ⟨kind, r.access.isWrite, address, length, window, frame, 0⟩ with
          sent := (s.port h).sent ++ [refusal] })) ∧
      (∀ f offset, s.accessCheck h r.access address = .pass f offset →
        exec (.dataRequestArrival h r) s = .next (s.setUnit h { s.unit h with
          ort := (s.unit h).ort ++ [⟨r.tag, r.access, address, f, offset, length, false⟩] })))

/-- R113: the pool arbiter's grant. -/
def Obligations.PoolGranted : Prop :=
  ∀ (s : State), (s.job ≠ .idle → exec .poolGrant s = .next s) ∧ (s.job = .idle →
    ((s.load = .loading ∨ s.scrubQueue = []) → (∀ h, ∀ e ∈ (s.unit h).ort, e.inPool = true) →
      exec .poolGrant s = .next s) ∧
    (s.load ≠ .loading → s.scrubQueue ≠ [] → (s.turn = 16 ∨ ∀ h, ∀ e ∈ (s.unit h).ort, e.inPool = true) →
      exec .poolGrant s = .next { s with job := .scrub, turn := 0 }) ∧
    (∀ h older e newer, (s.load = .loading ∨ s.scrubQueue = [] ∨ s.turn ≠ 16) →
      (s.unit h).ort = older ++ e :: newer → (∀ x ∈ older, x.inPool = true) → e.inPool = false →
      (∀ n : Fin 4, n < h - s.portPointer → ∀ x ∈ (s.unit (s.portPointer + n)).ort, x.inPool = true) →
      exec .poolGrant s = .next
        { s.setUnit h { s.unit h with ort := older ++ { e with inPool := true } :: newer } with
          job := .port h
          portPointer := h + 1
          turn := if s.load ≠ .loading ∧ s.scrubQueue ≠ [] then s.turn + 1 else s.turn }))

/-- R17, R18 and R115: the end of a scrubber write. -/
def Obligations.ScrubWriteEnds : Prop :=
  ∀ (s : State) (f : Nat) (rest : List Nat), s.job = .scrub → s.scrubQueue = f :: rest →
    ∃ t : State, (∀ a, t.poolByte a = if a / 64 = f * 1024 + s.scrubPos then 0 else s.poolByte a) ∧
      (∀ b, t.blockError b = if b = f * 1024 + s.scrubPos then .none else s.blockError b) ∧
      t = { s with job := .idle, mem := t.mem, blocks := t.blocks } ∧
      (s.scrubPos < 1023 → exec .scrubWritePerformed s = .next { t with scrubPos := s.scrubPos + 1 }) ∧
      (s.scrubPos = 1023 → exec .scrubWritePerformed s = .next
        ({ t with
            scrubQueue := rest
            scrubPos := 0
            freeList := s.freeList ++ [f]
            frames := Table.set FrameRecord.initial s.frames f { s.frame f with state := .free, damaged := false } }
          : State).serveWaitList)

/-- R116, R118 and R119: the end of a read. Without an uncorrectable error no pool block changes; with one, the blocks in
which it has arisen keep it (log entry 10). The bytes are those at the end of the performance (log entry 26). -/
def Obligations.ReadEnds : Prop :=
  ∀ (s : State) (h : HostId) (e : OrtEntry) (e0 e1 : BlockError), s.job = .port h → s.inPoolEntry h = some e →
    e.access = .read →
    ∃ t : State, exec (.readPerformed e0 e1) s = .next t ∧
      ((∀ be ∈ e.poolBlocks.zip [e0, e1], (s.blockError be.1).worse be.2 ≠ .uncorrectable) →
        t = ({ s with job := .idle } : State).retire h e (.readCompletion e.tag .ok ((List.range e.length).map
            (fun i => s.poolByte (e.frame * 65536 + e.offset + i))))) ∧
      ((∃ be ∈ e.poolBlocks.zip [e0, e1], (s.blockError be.1).worse be.2 = .uncorrectable) →
        ∃ u : State, t = u.retire h e (.readCompletion e.tag .dataError (List.replicate e.length 0xFF)) ∧
          (∀ a, u.poolByte a = s.poolByte a) ∧
          (∀ b, u.blockError b =
            if (b, BlockError.uncorrectable) ∈ e.poolBlocks.zip [e0, e1] ∧
                Table.get BlockStatus.unknown s.blocks b ≠ .unknown then .uncorrectable
            else s.blockError b) ∧
          u = { (s.setFrame e.frame { s.frame e.frame with damaged := true }).setPort h
                  ((s.port h).reportFault ⟨.poolData, false, e.address, e.length, none, some e.frame, 0⟩) with
                job := .idle, blocks := u.blocks })

/-- R117, R118 and R119: the end of a write. A dropped write changes no pool block but that one in which an uncorrectable
error has arisen keeps it (log entry 10). -/
def Obligations.WriteEnds : Prop :=
  ∀ (s : State) (h : HostId) (e : OrtEntry) (bytes : List (Byte × Bool)) (e0 e1 : BlockError), s.job = .port h →
    s.inPoolEntry h = some e → e.access = .write bytes → bytes.length = e.length → 0 < e.length →
    e.offset % 128 + e.length ≤ 128 →
    ∃ t : State, exec (.writePerformed e0 e1) s = .next (t.retire h e (.creditReturn e.tag)) ∧
      ((∀ be ∈ e.poolBlocks.zip [e0, e1], e.partialIn be.1 = true →
          (s.blockError be.1).worse be.2 ≠ .uncorrectable) →
        (∀ a, t.poolByte a =
          match bytes[a - (e.frame * 65536 + e.offset)]? with
          | some (v, true) => if e.frame * 65536 + e.offset ≤ a then v else s.poolByte a
          | _ => s.poolByte a) ∧
        (∀ b, t.blockError b = if b ∈ e.poolBlocks ∧ 0 < e.enabledIn b then .none else s.blockError b) ∧
        t = { s with job := .idle, mem := t.mem, blocks := t.blocks }) ∧
      ((∃ be ∈ e.poolBlocks.zip [e0, e1], e.partialIn be.1 = true ∧
          (s.blockError be.1).worse be.2 = .uncorrectable) →
        (∀ a, t.poolByte a = s.poolByte a) ∧
        (∀ b, t.blockError b =
          if (b, BlockError.uncorrectable) ∈ e.poolBlocks.zip [e0, e1] ∧ e.partialIn b = true ∧
              Table.get BlockStatus.unknown s.blocks b ≠ .unknown then .uncorrectable
          else s.blockError b) ∧
        t = { (s.setFrame e.frame { s.frame e.frame with damaged := true }).setPort h
                ((s.port h).reportFault ⟨.poolData, true, e.address, e.length, none, some e.frame, 0⟩) with
              job := .idle, blocks := t.blocks })

/-- R48, R109 and R119: the retirement of an entry. -/
def Obligations.RetirementAnswersAndReports : Prop :=
  ∀ (s : State) (h : HostId) (e : OrtEntry) (m : LinkMessage),
    let t := (s.setUnit h { s.unit h with ort := (s.unit h).ort.filter (fun x => x.tag ≠ e.tag) }).setPort h
      (if (s.port h).linkUp then { s.port h with sent := (s.port h).sent ++ [m] } else s.port h)
    ((s.frame e.frame).closing.get h = false ∨ (∃ x ∈ (s.unit h).ort, x.tag ≠ e.tag ∧ x.frame = e.frame) →
      s.retire h e m = t) ∧
    ((s.frame e.frame).closing.get h = true → (∀ x ∈ (s.unit h).ort, x.frame = e.frame → x.tag = e.tag) →
      s.retire h e m = t.drainReport h e.frame)

/-! ### Drains, expiries and departures -/

/-- R48, R120 and R154: a drain check that the Map Controller asked for (log entry 15), what a report that no entry remains
does, and the drain of an access that a departure sweep has closed. That the sweep's position stays at the frame in the event
of the last drain, to pass it at the next SWEEP_STEP, is the model's choice (log entry 13), as is the mark of a forced
freeing under way (log entry 14). -/
def Obligations.DrainCheckMade : Prop :=
  (∀ (s : State) (h : HostId) (f : Nat), (h, f) ∈ s.drainChecks →
    let t := { s with drainChecks := s.drainChecks.erase (h, f) }
    ((∃ e ∈ (s.unit h).ort, e.frame = f) → exec (.drainCheck h f) s = .next t) ∧
    ((∀ e ∈ (s.unit h).ort, e.frame ≠ f) → exec (.drainCheck h f) s = .next (t.drainReport h f))) ∧
  (∀ (s : State) (h : HostId) (f : Nat),
    ((s.frame f).closing.get h = false → s.drainReport h f = s) ∧
    (∀ id r, (s.frame f).closing.get h = true → s.Recalled f h id r .closing →
      s.drainReport h f =
        if r.purpose = .free ∧ r.requester = h ∧ r.othersDrained h = false then s else s.drainTarget id r h false) ∧
    (∀ o d, (s.frame f).closing.get h = true → s.recallOf f h = none → (s.frame f).owner = some o →
      s.departures.get o = some d → d.phase = .sweeping f true → s.drainReport h f = s.drainSwept h f o) ∧
    ((s.frame f).closing.get h = true → s.recallOf f h = none →
      (∀ o d, (s.frame f).owner = some o → s.departures.get o = some d → d.phase ≠ .sweeping f true) →
      s.drainReport h f = s)) ∧
  ∀ (s : State) (h o : HostId) (f : Nat) (d : Departure), s.departures.get o = some d →
    ∃ u : State,
      (∀ g, u.frame g =
        if g = f then
          { s.frame g with
            access := (s.frame g).access.set h .none, closing := (s.frame g).closing.set h false }
        else s.frame g) ∧
      (∀ k, u.port k = if k = h then (s.port k).postNotice (.revoked f .depart) else s.port k) ∧
      u = { s with frames := u.frames, ports := u.ports } ∧
      ((∃ k, k ≠ o ∧ k ≠ h ∧ (s.frame f).access.get k ≠ .none) → s.drainSwept h f o = u) ∧
      ((∀ k, k ≠ o → k ≠ h → (s.frame f).access.get k = .none) →
        s.drainSwept h f o =
          { u.enterScrubbing f with
            departures := s.departures.set o (some { d with phase := .sweeping f false }) })

/-- R49, R50, R66, R68 and R69: the drain of a target of a record of any purpose, with its notice unless it is drained by its
host's departure, and the record's completion when it was the last. The model's choices: the owner's GRANT_DROPPED for a
departing host's own RELEASE record drained before its drain phase ends (log entry 30), no completion where no entry is
reserved (log entry 17). -/
def Obligations.LastDrainCompletesRecord : Prop :=
  ∀ (s : State) (id : Nat) (r : RecallRecord) (h : HostId) (quiet : Bool), s.record id = some r → r.undrained h = true →
    ∃ (n : RecallRecord) (u : State), n = { r with targets := n.targets, deadline := n.deadline } ∧
      (∀ k, n.targets.get k =
        if k = h then some .drained
        else if r.purpose = .free ∧ r.requester = k ∧ r.targets.get k = some .notice ∧
            ∀ j, j ≠ k → j ≠ h → r.targets.get j ≠ some .notice then some .closing
        else r.targets.get k) ∧
      n.deadline = (if ∃ k, n.targets.get k = some .notice then r.deadline else none) ∧
      (∀ j, u.record j = if j = id then some n else s.record j) ∧
      (∀ f, u.frame f =
        if f = r.frame then
          { s.frame f with
            access := (s.frame f).access.set h .none
            closing := PerHost.make (fun k => decide (k ≠ h) && ((s.frame f).closing.get k ||
              decide (n.targets.get k = some .closing ∧ r.targets.get k ≠ some .closing))) }
        else s.frame f) ∧
      (∀ k, u.port k =
        if quiet = true then s.port k
        else
          match r.purpose with
          | .revoke => if k = h then (s.port k).postNotice (.revoked r.frame .revoke) else s.port k
          | .free =>
            if k = h ∧ k ≠ r.requester then (s.port k).postNotice (.revoked r.frame .free) else s.port k
          | .handover => if k = h then (s.port k).postNotice (.revoked r.frame .handover) else s.port k
          | .release =>
            if (s.frame r.frame).owner = some k then (s.port k).postNotice (.grantDropped r.frame h .release)
            else s.port k) ∧
      (∀ k f, (k, f) ∈ u.drainChecks ↔ (k, f) ∈ s.drainChecks ∨
        (f = r.frame ∧ r.purpose = .free ∧ k = r.requester ∧ k ≠ h ∧ n.targets.get k = some .closing ∧
          n.othersDrained k = true ∧ ¬ (r.targets.get k = some .closing ∧ r.othersDrained k = true))) ∧
      u = { s with ports := u.ports, frames := u.frames, recalls := u.recalls, drainChecks := u.drainChecks } ∧
      ((∃ k, n.undrained k = true) → s.drainTarget id r h quiet = u) ∧
      ((∀ k, n.undrained k = false) →
        ∃ v w : State, (∀ j, v.record j = if j = id then none else s.record j) ∧
          (∀ f, v.frame f =
            if f = r.frame then
              { u.frame f with recallSet := (s.frame f).recallSet.filter (fun j => j ≠ id) }
            else s.frame f) ∧
          v = { u with frames := v.frames, recalls := v.recalls } ∧
          w = (if r.purpose = .free then v.enterScrubbing r.frame else v) ∧
          s.drainTarget id r h quiet = w.setPort r.requester (
            if (u.port r.requester).portState = .member ∧ 0 < (u.port r.requester).reserved then
              { u.port r.requester with
                events := (u.port r.requester).events ++ [Event.completion r.tag r.purpose.code .ok .none]
                reserved := (u.port r.requester).reserved - 1
                hirq := (u.port r.requester).eventIe ||
                  ((u.port r.requester).faultIe && !(u.port r.requester).faults.isEmpty) }
            else u.port r.requester))

/-- R5 and R68: entry into SCRUBBING from an owned state. -/
def Obligations.OwnedFrameEntersScrubbing : Prop :=
  ∀ (s : State) (f : Nat) (o : HostId), (s.frame f).owner = some o →
    (s.frame f).state = .held ∨ (s.frame f).state = .freeing →
    s.enterScrubbing f =
      { s.setFrame f { s.frame f with
          state := .scrubbing, owner := none, access := PerHost.all .none, closing := PerHost.all false
          generation := (s.frame f).generation + 1, label := none, inheritFlag := false } with
        owned := s.owned.set o (s.owned.get o - 1)
        scrubQueue := s.scrubQueue ++ [f]
        scrubPos := if s.scrubQueue = [] then 0 else s.scrubPos }

/-- R52 and R165: a grace expiry. -/
def Obligations.GraceExpires : Prop :=
  ∀ (s : State) (id : Fin 16) (r : RecallRecord) (dl : BitVec 32), s.record id.val = some r → r.deadline = some dl →
    (2 ^ 31 ≤ (s.tick - dl).toNat → exec (.graceExpiry id) s = .next s) ∧
    ((s.tick - dl).toNat < 2 ^ 31 →
      ∃ t : State, exec (.graceExpiry id) s = .next t ∧
        (∀ j, t.record j =
          if j = id.val then
            some { r with
              deadline := none
              targets := PerHost.make (fun k => if r.targets.get k = some .notice then some .closing else r.targets.get k) }
          else s.record j) ∧
        (∀ f, t.frame f =
          if f = r.frame then
            { s.frame f with
              closing := PerHost.make (fun k =>
                (s.frame f).closing.get k || decide (r.targets.get k = some .notice)) }
          else s.frame f) ∧
        (∀ k f, (k, f) ∈ t.drainChecks ↔ (k, f) ∈ s.drainChecks ∨
          (f = r.frame ∧ r.targets.get k = some .notice ∧
            ¬ (r.purpose = .free ∧ r.requester = k ∧ r.othersDrained k = false))) ∧
        t = { s with frames := t.frames, recalls := t.recalls, drainChecks := t.drainChecks })

/-- R82 and R165: an offer expiry. -/
def Obligations.OfferExpires : Prop :=
  ∀ (s : State) (i : Fin 8) (serial : BitVec 8) (o : Offer), s.offerSlot i.val = ⟨serial, some o⟩ →
    (2 ^ 31 ≤ (s.tick - o.deadline).toNat → exec (.offerExpiry i) s = .next s) ∧
    (o.giver ≠ o.recipient → (s.tick - o.deadline).toNat < 2 ^ 31 →
      exec (.offerExpiry i) s = .next ((((s.setOfferSlot i.val ⟨serial + 1, none⟩).setFrame o.frame
          { s.frame o.frame with offer := none }).setPort o.giver
          ((s.port o.giver).postNotice (.offerClosed ⟨i.val, serial⟩ o.frame .expired))).setPort o.recipient
          ((s.port o.recipient).postNotice (.offerClosed ⟨i.val, serial⟩ o.frame .expired))))

/-- R30, R58, R84, R86, R91, R140, R147 and R148: the start of a departure, by LEAVE or by the loss of a member's link. That the
closed offers' notices come before the service of the wait list is read from R131 (log entry 12). -/
def Obligations.DepartureStarts : Prop :=
  ∀ (s : State) (h : HostId),
    (∀ d, s.Takes h d codeLeave → ∃ t : State, exec .leave s = .next t ∧ t.DepartureStarted s h (.leave d.tag) ∧
      t.cmdPointer = h + 1 ∧ (t.port h).linkUp = (s.port h).linkUp) ∧
    ((s.port h).portState = .member → ∃ t : State, exec (.linkDown h) s = .next t ∧ t.DepartureStarted s h .link ∧
      t.cmdPointer = s.cmdPointer ∧ (t.port h).linkUp = false)

/-- R49, R50, R69, R150 and R154: the end of a departure's drain phase: its drains, frame by frame in a free order (log entry
11), each a drain without a notice of the host's target, or of the access another sweep has closed; what they leave. The
model's choices: the event stands made in phase DRAINING with an empty ORT (log entry 16); another host's sweep keeps its
position in the event of its frame's last drain, to pass it at its next SWEEP_STEP (log entry 13); the mark of a forced
freeing (log entry 14). -/
def Obligations.DrainPhaseEnds : Prop :=
  (∀ (s : State) (h : HostId) (f : Nat),
    (∀ id r, s.recallOf f h = some id → s.record id = some r →
      s.settleDeparting h f =
        if r.purpose = .free ∧ r.requester = h ∧ r.othersDrained h = false then s else s.drainTarget id r h true) ∧
    (∀ o d, s.recallOf f h = none → (s.frame f).owner = some o → s.departures.get o = some d →
      d.phase = .sweeping f true →
      s.settleDeparting h f = if (s.frame f).closing.get h then s.drainSwept h f o else s) ∧
    (s.recallOf f h = none →
      (∀ o d, (s.frame f).owner = some o → s.departures.get o = some d → d.phase ≠ .sweeping f true) →
      s.settleDeparting h f = s)) ∧
  ∀ (s : State) (h : HostId) (d : Departure), s.departures.get h = some d →
    (d.phase ≠ .draining ∨ (s.unit h).ort ≠ [] → exec (.drainPhaseEnd h) s = .next s) ∧
    (d.phase = .draining → (s.unit h).ort = [] →
      ∃ t : State, exec (.drainPhaseEnd h) s = .next t ∧
        t.departures.get h = some { d with phase := .sweeping 0 false } ∧
        t.units = s.units ∧ t.waitList = s.waitList ∧ t.freeList = s.freeList ∧ t.offers = s.offers ∧
        (s.OneRecallEach → ∀ id r, id < 16 → t.record id = some r → r.undrained h = true →
          r.purpose = .free ∧ r.requester = h ∧ ∃ k, k ≠ h ∧ r.undrained k = true) ∧
        (∃ (order : List Nat) (u : State), order.Nodup ∧
          (∀ f, f ∈ order ↔
            (∃ id r, id < 16 ∧ s.record id = some r ∧ r.frame = f ∧ r.undrained h = true) ∨
            ∃ j dj, s.departures.get j = some dj ∧ dj.phase = .sweeping f true) ∧
          u = order.foldl (fun u f => u.settleDeparting h f) { s with fresh := t.fresh } ∧
          t = { u with departures := u.departures.set h (some { d with phase := .sweeping 0 false }) }) ∧
        (s.OneRecallEach → ∀ id r, id < 16 → s.record id = some r → r.undrained h = true →
          ¬ (r.purpose = .free ∧ r.requester = h ∧ r.othersDrained h = false) →
          (t.frame r.frame).access.get h = .none ∧ (t.frame r.frame).closing.get h = false ∧
          (r.othersDrained h = true → t.record id = none) ∧
          (r.othersDrained h = false → ∃ n, t.record id = some n ∧ n.targets.get h = some .drained ∧
            ∀ k, k ≠ h → (n.undrained k = r.undrained k))) ∧
        (∀ j dj f, s.departures.get j = some dj → dj.phase = .sweeping f true → (s.frame f).owner = some j →
          (s.frame f).state = .held → s.recallOf f h = none → (s.frame f).closing.get h = true →
          (t.frame f).access.get h = .none ∧ (t.frame f).closing.get h = false ∧
          ((∀ k, k ≠ j → k ≠ h → (s.frame f).access.get k = .none) →
            (t.frame f).state = .scrubbing ∧
            t.departures.get j = some { dj with phase := .sweeping f false })) ∧
        ((∀ id r, id < 16 → s.record id = some r → r.undrained h = false) →
          (∀ j dj f, s.departures.get j = some dj → dj.phase ≠ .sweeping f true) →
          t = { s with
                departures := s.departures.set h (some { d with phase := .sweeping 0 false }), fresh := t.fresh }))

/-- R151, R152, R153 and R154: a sweep step at frame `f`. That a waiting sweep's step changes nothing and the mark of a forced
freeing under way are the model's own (log entries 13 and 14). -/
def Obligations.SweepStepTaken : Prop :=
  ∀ (s : State) (h : HostId) (cause : Cause) (f : Nat),
    (s.departures.get h = some ⟨cause, .sweeping f true⟩ → exec (.sweepStep h) s = .next s) ∧
    (s.departures.get h = some ⟨cause, .sweeping f false⟩ →
      ((s.frame f).owner ≠ some h → (s.frame f).access.get h = .none →
        exec (.sweepStep h) s = .next (s.passSweep h cause f)) ∧
      ((s.frame f).owner = some h ∨ (s.frame f).access.get h ≠ .none →
        (s.frame f).closing.get h = true ∨ (s.frame f).recallSet ≠ [] → exec (.sweepStep h) s = .next s) ∧
      ((s.frame f).closing.get h = false → (s.frame f).recallSet = [] →
        (∀ o, (s.frame f).owner = some o → o ≠ h → (s.frame f).access.get h ≠ .none →
          exec (.sweepStep h) s = .next (((s.setFrame f
              { s.frame f with access := (s.frame f).access.set h .none }).notify o
              (.grantDropped f h .depart)).passSweep h cause f)) ∧
        (∀ k, (s.frame f).owner = some h → (s.frame f).state = .held → (s.frame f).inheritFlag = true →
          s.heirOf f h = some k →
          ∃ t : State, exec (.sweepStep h) s = .next (t.passSweep h cause f) ∧
            (∀ g, t.frame g =
              if g = f then { s.frame g with owner := some k, access := (s.frame g).access.set h .none }
              else s.frame g) ∧
            (∀ j, t.port j =
              if j = k then (s.port j).postNotice (.ownershipReceived f h (s.frame f).label)
              else if j ≠ h ∧ (s.frame f).access.get j ≠ .none then
                (s.port j).postNotice (.ownerChanged f k .inherit)
              else s.port j) ∧
            t = { s with
                  frames := t.frames, ports := t.ports
                  owned := (s.owned.set h (s.owned.get h - 1)).set k (s.owned.get k + 1) }) ∧
        ((s.frame f).owner = some h → (s.frame f).state = .held →
          ((s.frame f).inheritFlag = false ∨ s.heirOf f h = none) →
          ((∀ k, k ≠ h → (s.frame f).access.get k = .none) →
            exec (.sweepStep h) s = .next ((s.enterScrubbing f).passSweep h cause f)) ∧
          ((∃ k, k ≠ h ∧ (s.frame f).access.get k ≠ .none) →
            ∃ t : State, exec (.sweepStep h) s = .next t ∧
              (∀ g, t.frame g =
                if g = f then
                  { s.frame g with
                    closing := PerHost.make (fun k => (s.frame g).closing.get k ||
                      decide (k ≠ h ∧ (s.frame g).access.get k ≠ .none)) }
                else s.frame g) ∧
              (∀ k g, (k, g) ∈ t.drainChecks ↔ (k, g) ∈ s.drainChecks ∨
                (g = f ∧ k ≠ h ∧ (s.frame f).access.get k ≠ .none)) ∧
              t = { s with
                    frames := t.frames, drainChecks := t.drainChecks
                    departures := s.departures.set h (some ⟨cause, .sweeping f true⟩) }))))

/-- R151 and R156: to pass a frame, and the end of a departure at the last one. -/
def Obligations.LastPassEndsDeparture : Prop :=
  ∀ (s : State) (h : HostId) (cause : Cause) (f : Nat),
    (f + 1 < s.frameCount → s.passSweep h cause f =
      { s with departures := s.departures.set h (some ⟨cause, .sweeping (f + 1) false⟩) }) ∧
    (f + 1 = s.frameCount →
      ∃ t : State, s.passSweep h cause f = t ∧
        t = { s with departures := s.departures.set h none, ports := t.ports } ∧
        (∀ k, k ≠ h → t.port k = (s.port k).postNotice (.hostLeft h)) ∧
        ((s.port h).linkUp = false →
          t.port h = { s.port h with portState := .down, eventIe := false, faultIe := false, hirq := false }) ∧
        ((s.port h).linkUp = true → cause = .link → t.port h = { s.port h with portState := .attached }) ∧
        (∀ tag, (s.port h).linkUp = true → cause = .leave tag →
          t.port h = { s.port h with
            portState := .attached
            events := (s.port h).events ++ [Event.completion tag codeLeave .ok .none]
            hirq := (s.port h).eventIe || ((s.port h).faultIe && !(s.port h).faults.isEmpty) }))

/-! ### Start-up, links and reset -/

/-- R160, R164 and R165: a tick, the tick at which a deadline is first reached, and that no step leaves one passed. That what
is due and has not come as its own command is taken by the next tick, before the counter moves on, is how the model puts
"at that tick" (log entry 4). -/
def Obligations.TicksReachDeadlines : Prop :=
  (∀ s : State, s.resetAsserted = false →
    ((s.load = .loading → s.tick.toNat ≠ 100) →
      (∀ id r dl, id < 16 → s.record id = some r → r.deadline = some dl → 2 ^ 31 ≤ (s.tick - dl).toNat) →
      (∀ i o, i < 8 → (s.offerSlot i).offer = some o → 2 ^ 31 ≤ (s.tick - o.deadline).toNat) →
      exec .tick s = .next { s with tick := s.tick + 1, fresh := s.fresh + 1 }) ∧
    (s.load = .loading → s.tick.toNat = 100 → (∀ id, s.record id = none) → (∀ i, (s.offerSlot i).offer = none) →
      ∃ t : State, exec .loadTimeout s = .next t ∧
        exec .tick s = .next { t with tick := s.tick + 1, fresh := s.fresh + 1 }) ∧
    ∃ (slots : List (Fin 8)) (u : State), slots.Nodup ∧
      (∀ i, i ∈ slots ↔ ∃ o, (s.offerSlot i.val).offer = some o ∧ (s.tick - o.deadline).toNat < 2 ^ 31) ∧
      exec .tick s = .next { u with tick := s.tick + 1 } ∧
      u = ([Instr.loadTimeout] ++ (List.finRange 16).map Instr.graceExpiry ++ slots.map Instr.offerExpiry).foldl
        (fun v c => match exec c v with
          | .next w => w
          | _ => v) { s with fresh := s.fresh + 1 }) ∧
  (∀ (now : BitVec 32) (ticks n : Nat), 1 ≤ ticks → ticks ≤ 65535 → n ≤ ticks →
    (deadlineReached (now + BitVec.ofNat 32 n) (deadlineAfter now ticks) = true ↔ n = ticks) ∧
    ticksRemaining now (deadlineAfter now ticks) = ticks) ∧
  ∀ s t : State, s.MembershipSound → s.NonePassed → step s = .next t → t.NonePassed

/-- R160 to R163: how the configuration load ends, by a time-out at tick 100 or by an image received before it; an image
received at or after tick 100 is ignored (log entry 5). -/
def Obligations.LoadEnds : Prop :=
  ∀ (s : State),
    (s.resetAsserted = true ∨ s.load ≠ .loading →
      exec .loadTimeout s = .next s ∧ ∀ image, exec (.imageReceived image) s = .next s) ∧
    (s.resetAsserted = false → s.load = .loading →
      let n := if s.strap = 1 then 8192 else if s.strap = 2 then 16384 else 4096
      let entered := fun (l : LoadState) (c : Configuration) =>
        { s with load := l, config := some c, promSelect := false, frames := [], scrubQueue := List.range c.frames
                 scrubPos := 0 }
      let defaulted := entered .defaulted ⟨n, ⟨true, true, true, true⟩, ⟨n / 4, n / 4, n / 4, n / 4⟩, 100, 2000⟩
      (s.tick.toNat = 100 → exec .loadTimeout s = .next defaulted) ∧
      (s.tick.toNat < 100 → exec .loadTimeout s = .next s) ∧
      (100 ≤ s.tick.toNat → ∀ image, exec (.imageReceived image) s = .next s) ∧
      (∀ image : List Byte, s.tick.toNat < 100 → image.length = 64 →
        let size := (byteAt image 1).toNat
        let word := fun i => 256 * (byteAt image i).toNat + (byteAt image (i + 1)).toNat
        (((crc16 (image.take 62)).toNat ≠ word 62 ∨ byteAt image 0 ≠ 0x3A ∨ 2 < size ∨ n < 4096 * 2 ^ size ∨
            4096 * 2 ^ size < word 4 ∨ 4096 * 2 ^ size < word 6 ∨ 4096 * 2 ^ size < word 8 ∨
            4096 * 2 ^ size < word 10 ∨ word 12 = 0 ∨ word 14 = 0) →
          exec (.imageReceived image) s = .next defaulted) ∧
        ((crc16 (image.take 62)).toNat = word 62 → byteAt image 0 = 0x3A → size ≤ 2 → 4096 * 2 ^ size ≤ n →
          word 4 ≤ 4096 * 2 ^ size → word 6 ≤ 4096 * 2 ^ size → word 8 ≤ 4096 * 2 ^ size →
          word 10 ≤ 4096 * 2 ^ size → word 12 ≠ 0 → word 14 ≠ 0 →
          exec (.imageReceived image) s = .next (entered .loaded
            { frames := 4096 * 2 ^ size
              enabled := ⟨(byteAt image 2).getLsbD 0, (byteAt image 2).getLsbD 1, (byteAt image 2).getLsbD 2,
                (byteAt image 2).getLsbD 3⟩
              quota := ⟨word 4, word 6, word 8, word 10⟩
              grace := word 12
              lifetime := word 14 }))))

/-- R125, R141, R143 and R144: link reports that begin no departure. The credits of one link-up are one item of the model's
own record of link output (log entry 8). -/
def Obligations.LinksReported : Prop :=
  ∀ (s : State) (h : HostId),
    ((s.port h).linkUp = true → exec (.linkUp h) s = .next s) ∧
    (s.resetAsserted = false → (s.port h).linkUp = false →
      (s.port h).portState = .down ∨ (s.port h).portState = .leaving →
      ∃ tags, (∀ tag, tag ∈ tags ↔ ∀ e ∈ (s.unit h).ort, e.tag ≠ tag) ∧ tags.Nodup ∧
        exec (.linkUp h) s = .next (s.setPort h { s.port h with
          linkUp := true
          portState := if (s.port h).portState = .down then .attached else .leaving
          sent := (s.port h).sent ++ [.creditGrant tags] })) ∧
    ((s.port h).portState = .down → exec (.linkDown h) s = .next s) ∧
    ((s.port h).portState = .leaving →
      exec (.linkDown h) s = .next (s.setPort h { s.port h with linkUp := false })) ∧
    ((s.port h).portState = .attached →
      exec (.linkDown h) s = .next (s.setPort h { s.port h with
        portState := .down, linkUp := false, events := [], reserved := 0, noticeLost := false, faults := []
        eventIe := false, faultIe := false, hirq := false }))

/-- R2, R126, R166, R168 and the table of section 9.5: device reset and the deassertion of RESET_N. The contents of the pool
are unknown anew, one free value for each byte and block and reset (log entry 9). What is kept through the reset is the
model's own (log entry 7). -/
def Obligations.ResetTakenAndReleased : Prop :=
  ∀ (s : State) (strap : BitVec 2),
    (∃ t : State, exec .deviceReset s = .next t ∧ t.pending = s.pending ∧ t.resetAsserted = true ∧
      t.promSelect = false ∧ t.load = .loading ∧ t.config = none ∧ t.tick = 0 ∧ t.frameCount = 0 ∧ t.frames = [] ∧
      (∀ h, t.port h =
        { portState := .down, linkUp := false, staging := List.replicate 32 0, submitStatus := .none
          joinStatus := .none, queue := [], events := [], reserved := 0, noticeLost := false, faults := []
          eventIe := false, faultIe := false, hirq := false, sent := [] }) ∧
      (∀ h, t.unit h = { windows := [], slots := [], ort := [] }) ∧
      (∀ id, t.record id = none) ∧ (∀ i, t.offerSlot i = ⟨0, none⟩) ∧ t.waitList = [] ∧
      (∀ h, t.owned.get h = 0 ∧ t.waiting.get h = 0 ∧ t.departures.get h = none) ∧ t.cmdPointer = 0 ∧
      t.drainChecks = [] ∧ t.freeList = [] ∧ t.scrubQueue = [] ∧ t.scrubPos = 0 ∧ t.job = .idle ∧ t.portPointer = 0 ∧
      t.turn = 0 ∧ t.blocks = [] ∧ (∀ a, t.poolByte a = Config.unknownByte (s.resetCount + 1) a) ∧
      ∀ b, t.blockError b = Config.unknownBlockError (s.resetCount + 1) b) ∧
    (s.resetAsserted = true →
      exec (.resetDeassert strap) s = .next
        { s with resetAsserted := false, strap := strap, tick := 0, load := .loading, config := none
                 promSelect := true } ∧
      exec .tick s = .next s ∧ ∀ h, exec (.linkUp h) s = .next s)

/-! ### Laws that every command keeps -/

/-- The state after device reset obeys every law below. -/
def Obligations.ResetObeysTheLaws : Prop :=
  State.reset.TablesCanonical ∧ State.reset.HirqFollows ∧ State.reset.MembershipSound ∧ State.reset.Bounded ∧
  State.reset.FrameLaw ∧ State.reset.QuotaLaw ∧ State.reset.RecallLaw ∧ State.reset.NonePassed

/-- Every table, pool memory among them, keeps its canonical form. -/
def Obligations.TablesStayCanonical : Prop :=
  ∀ s t : State, s.TablesCanonical → step s = .next t → t.TablesCanonical

/-- R139: HIRQh follows its condition at each event. -/
def Obligations.InterruptLinesFollow : Prop :=
  ∀ s t : State, s.HirqFollows → step s = .next t → t.HirqFollows

/-- R30, R86, R91, R142, R147, R163 and R166: port states, link states, departure records and the load agree. -/
def Obligations.MembershipStaysSound : Prop :=
  ∀ s t : State, s.MembershipSound → step s = .next t → t.MembershipSound

/-- R17, R28, R30, R111, R113, R127 and R134: queues, logs, counters and the ORT keep their bounds. -/
def Obligations.BoundsKept : Prop :=
  ∀ s t : State, s.MembershipSound → s.Bounded → step s = .next t → t.Bounded

/-- R3: every frame is in exactly one place. -/
def Obligations.FrameLawKept : Prop :=
  ∀ s t : State, s.MembershipSound → s.FrameLaw → step s = .next t → t.FrameLaw

/-- R14: owned count plus waiting count never exceeds the quota. -/
def Obligations.QuotaLawKept : Prop :=
  ∀ s t : State, s.MembershipSound → s.QuotaLaw → step s = .next t → t.QuotaLaw

/-- R45: at most one Recall Record withdraws a host's access to a frame, and a frame with an open offer has none. -/
def Obligations.RecallLawKept : Prop :=
  ∀ s t : State, s.MembershipSound → s.RecallLaw → step s = .next t → t.RecallLaw
end

