-- ==== Sys2Proof/Laws/Table.lean ====
section
/-! SUPPORT. Laws of sparse tables and of the values kept per host: a read after a write, and the canonical form kept. -/

namespace Sys2Proof

/-! ### Values kept per host -/

@[simp] theorem PerHost.get_set {α : Type} (p : PerHost α) (h k : HostId) (v : α) :
    (p.set h v).get k = if k = h then v else p.get k := by
  fin_cases h <;> fin_cases k <;> rfl

theorem PerHost.get_set_same {α : Type} (p : PerHost α) (h : HostId) (v : α) : (p.set h v).get h = v := by simp

theorem PerHost.get_set_ne {α : Type} (p : PerHost α) {h k : HostId} (v : α) (hne : k ≠ h) :
    (p.set h v).get k = p.get k := by simp [hne]

@[simp] theorem PerHost.get_make {α : Type} (g : HostId → α) (h : HostId) : (PerHost.make g).get h = g h := by
  fin_cases h <;> rfl

@[simp] theorem PerHost.get_all {α : Type} (v : α) (h : HostId) : (PerHost.all v).get h = v := by
  fin_cases h <;> rfl

theorem PerHost.ext_get {α : Type} {p q : PerHost α} (hall : ∀ h, p.get h = q.get h) : p = q := by
  have h0 := hall 0
  have h1 := hall 1
  have h2 := hall 2
  have h3 := hall 3
  cases p
  cases q
  simp_all [PerHost.get]

@[simp] theorem PerHost.set_get {α : Type} (p : PerHost α) (h : HostId) : p.set h (p.get h) = p := by
  fin_cases h <;> rfl

@[simp] theorem PerHost.set_set {α : Type} (p : PerHost α) (h : HostId) (v w : α) : (p.set h v).set h w = p.set h w := by
  fin_cases h <;> rfl

theorem PerHost.set_comm {α : Type} (p : PerHost α) {h k : HostId} (v w : α) (hne : h ≠ k) :
    (p.set h v).set k w = (p.set k w).set h v := by
  apply PerHost.ext_get
  intro j
  by_cases h1 : j = k <;> by_cases h2 : j = h <;> simp [h1, h2]
  · exact absurd (h2.symm.trans h1) hne
  · intro h3
    exact absurd h3.symm hne
  · intro h3
    exact absurd h3 hne

@[simp] theorem mem_hosts (h : HostId) : h ∈ hosts := by fin_cases h <;> decide

theorem hosts_nodup : hosts.Nodup := by decide

end Sys2Proof

namespace Sys2Proof.Machine

variable {α : Type}

/-! ### A read after a write -/

@[simp] theorem Table.get_nil (d : α) (k : Nat) : Table.get d [] k = d := rfl

theorem Table.get_erase (d : α) (t : Table α) (k j : Nat) :
    Table.get d (Table.erase t k) j = if j = k then d else Table.get d t j := by
  induction t with
  | nil => simp [Table.erase, Table.get]
  | cons e rest ih =>
    obtain ⟨i, v⟩ := e
    simp only [Table.erase] at ih
    by_cases h1 : i = k
    · subst h1
      by_cases h2 : j = i <;> simp_all [Table.erase, Table.get]
    · by_cases h2 : j = i
      · subst h2
        simp [Table.erase, Table.get, h1]
      · simp [Table.erase, Table.get, h1, h2, ih]

theorem Table.get_insert (d : α) (t : Table α) (k j : Nat) (v : α) :
    Table.get d (Table.insert t k v) j = if j = k then v else Table.get d t j := by
  induction t with
  | nil => simp [Table.insert, Table.get]
  | cons e rest ih =>
    obtain ⟨i, w⟩ := e
    simp only [Table.insert]
    split
    · simp [Table.get]
    · split
      · next h => subst h; by_cases hj : j = k <;> simp [Table.get, hj]
      · next h1 h2 =>
        by_cases hj : j = i
        · subst hj
          have : j ≠ k := fun h => h2 h.symm
          simp [Table.get, this]
        · simp [Table.get, hj, ih]

/-- A read after a write: the value written at its key, and what stood there at every other key. -/
@[simp] theorem Table.get_set [DecidableEq α] (d : α) (t : Table α) (k j : Nat) (v : α) :
    Table.get d (Table.set d t k v) j = if j = k then v else Table.get d t j := by
  unfold Table.set
  split
  · next h => rw [Table.get_erase, h]
  · exact Table.get_insert d t k j v

theorem Table.get_of_unlisted (d : α) {t : Table α} {k : Nat} (hk : ∀ e ∈ t, e.1 ≠ k) : Table.get d t k = d := by
  induction t with
  | nil => rfl
  | cons e rest ih =>
    have h1 : k ≠ e.1 := fun h => hk e (by simp) h.symm
    simp [Table.get, h1, ih (fun x hx => hk x (by simp [hx]))]

/-! ### The canonical form -/

theorem Table.wf_nil (d : α) : Table.wf d ([] : Table α) := by simp [Table.wf]

theorem Table.wf_erase (d : α) {t : Table α} (k : Nat) (ht : Table.wf d t) : Table.wf d (Table.erase t k) :=
  ⟨ht.1.filter _, fun e he => ht.2 e (List.mem_filter.mp he).1⟩

theorem Table.mem_insert {t : Table α} {k : Nat} {v : α} {e : Nat × α} (he : e ∈ Table.insert t k v) :
    e = (k, v) ∨ e ∈ t := by
  induction t with
  | nil => simpa [Table.insert] using he
  | cons x rest ih =>
    obtain ⟨j, w⟩ := x
    simp only [Table.insert] at he
    split at he
    · simpa using he
    · split at he
      · rcases List.mem_cons.mp he with h | h
        · exact Or.inl h
        · exact Or.inr (List.mem_cons_of_mem _ h)
      · rcases List.mem_cons.mp he with h | h
        · exact Or.inr (by simp [h])
        · rcases ih h with h | h
          · exact Or.inl h
          · exact Or.inr (List.mem_cons_of_mem _ h)

theorem Table.wf_insert (d : α) {t : Table α} (k : Nat) {v : α} (hv : v ≠ d) (ht : Table.wf d t) :
    Table.wf d (Table.insert t k v) := by
  refine ⟨?_, fun e he => ?_⟩
  · have hp := ht.1
    clear ht
    induction t with
    | nil => simp [Table.insert]
    | cons x rest ih =>
      obtain ⟨j, w⟩ := x
      obtain ⟨hx, hrest⟩ := List.pairwise_cons.mp hp
      simp only [Table.insert]
      split
      · next h =>
        refine List.pairwise_cons.mpr ⟨fun e he => ?_, hp⟩
        rcases List.mem_cons.mp he with h' | h'
        · rw [h']; exact h
        · exact Nat.lt_trans h (hx e h')
      · split
        · next h => subst h; exact List.pairwise_cons.mpr ⟨hx, hrest⟩
        · next h1 h2 =>
          refine List.pairwise_cons.mpr ⟨fun e he => ?_, ih hrest⟩
          rcases Table.mem_insert he with h' | h'
          · rw [h']; exact Nat.lt_of_le_of_ne (Nat.not_lt.mp h1) (fun h => h2 h.symm)
          · exact hx e h'
  · rcases Table.mem_insert he with h | h
    · rw [h]; exact hv
    · exact ht.2 e h

/-- A write keeps the canonical form. -/
theorem Table.wf_set [DecidableEq α] (d : α) {t : Table α} (k : Nat) (v : α) (ht : Table.wf d t) :
    Table.wf d (Table.set d t k v) := by
  unfold Table.set
  split
  · exact Table.wf_erase d k ht
  · next h => exact Table.wf_insert d k h ht

/-- Equal reads make equal canonical tables. -/
theorem Table.ext_get (d : α) {t u : Table α} (ht : Table.wf d t) (hu : Table.wf d u)
    (hall : ∀ k, Table.get d t k = Table.get d u k) : t = u := by
  induction t generalizing u with
  | nil =>
    cases u with
    | nil => rfl
    | cons e rest =>
      have := hall e.1
      simp [Table.get] at this
      exact absurd this.symm (hu.2 e (by simp))
  | cons e rest ih =>
    obtain ⟨i, v⟩ := e
    obtain ⟨hi, hr⟩ := List.pairwise_cons.mp ht.1
    have hv : v ≠ d := ht.2 (i, v) (by simp)
    cases u with
    | nil =>
      have := hall i
      simp [Table.get] at this
      exact absurd this hv
    | cons x more =>
      obtain ⟨j, w⟩ := x
      obtain ⟨hj, hm⟩ := List.pairwise_cons.mp hu.1
      have hw : w ≠ d := hu.2 (j, w) (by simp)
      have below : ∀ (l : Table α) (n m : Nat), (∀ e ∈ l, n < e.1) → m ≤ n → Table.get d l m = d :=
        fun l n m hl hm => Table.get_of_unlisted d (fun e he => by have := hl e he; omega)
      have hij : i = j := by
        rcases Nat.lt_trichotomy i j with h | h | h
        · have h1 := hall i
          rw [Table.get, Table.get, if_pos rfl, if_neg (by omega), below more j i hj (by omega)] at h1
          exact absurd h1 hv
        · exact h
        · have h1 := hall j
          rw [Table.get, Table.get, if_pos rfl, if_neg (by omega), below rest i j hi (by omega)] at h1
          exact absurd h1.symm hw
      subst hij
      have hvw : v = w := by simpa [Table.get] using hall i
      subst hvw
      have hrest : rest = more := by
        apply ih ⟨hr, fun e he => ht.2 e (List.mem_cons_of_mem _ he)⟩
          ⟨hm, fun e he => hu.2 e (List.mem_cons_of_mem _ he)⟩
        intro k
        by_cases hk : k = i
        · subst hk
          rw [below rest k k hi (Nat.le_refl k), below more k k hj (Nat.le_refl k)]
        · simpa [Table.get, hk] using hall k
      rw [hrest]

/-! ### Ranked insertion -/

theorem insertRanked_perm (rank : Nat → Nat) (x : Nat) (l : List Nat) : (insertRanked rank x l).Perm (x :: l) := by
  induction l with
  | nil => exact List.Perm.refl _
  | cons y ys ih =>
    simp only [insertRanked]
    split
    · exact (ih.cons y).trans (List.Perm.swap x y ys)
    · exact List.Perm.refl _

/-- Sorting by rank keeps exactly the members. -/
theorem sortRanked_perm (rank : Nat → Nat) (l : List Nat) : (sortRanked rank l).Perm l := by
  induction l with
  | nil => exact List.Perm.refl _
  | cons x xs ih => exact (insertRanked_perm rank x _).trans (ih.cons x)

theorem mem_insertRanked (rank : Nat → Nat) (x y : Nat) (l : List Nat) :
    y ∈ insertRanked rank x l ↔ y = x ∨ y ∈ l := by
  rw [(insertRanked_perm rank x l).mem_iff, List.mem_cons]

theorem mem_sortRanked (rank : Nat → Nat) (y : Nat) (l : List Nat) : y ∈ sortRanked rank l ↔ y ∈ l :=
  (sortRanked_perm rank l).mem_iff

end Sys2Proof.Machine
end

