-- ==== Sys2Proof/Laws/State.lean ====
section
/-! SUPPORT. One lemma for each field and each basic update of State, and the reads of its parts after each update. -/

namespace Sys2Proof.Machine

variable (s : State)

/-! ### Updates by a function are updates by a value -/

@[simp] theorem State.updPort_eq (h : HostId) (g : HostPort → HostPort) :
    s.updPort h g = s.setPort h (g (s.port h)) := rfl

@[simp] theorem State.updUnit_eq (h : HostId) (g : TranslationUnit → TranslationUnit) :
    s.updUnit h g = s.setUnit h (g (s.unit h)) := rfl

@[simp] theorem State.updFrame_eq (f : Nat) (g : FrameRecord → FrameRecord) :
    s.updFrame f g = s.setFrame f (g (s.frame f)) := rfl

/-! ### setPort -/

@[simp] theorem State.setPort_pending (h : HostId) (p : HostPort) : (s.setPort h p).pending = s.pending := rfl
@[simp] theorem State.setPort_resetAsserted (h : HostId) (p : HostPort) :
    (s.setPort h p).resetAsserted = s.resetAsserted := rfl
@[simp] theorem State.setPort_strap (h : HostId) (p : HostPort) : (s.setPort h p).strap = s.strap := rfl
@[simp] theorem State.setPort_promSelect (h : HostId) (p : HostPort) :
    (s.setPort h p).promSelect = s.promSelect := rfl
@[simp] theorem State.setPort_load (h : HostId) (p : HostPort) : (s.setPort h p).load = s.load := rfl
@[simp] theorem State.setPort_config (h : HostId) (p : HostPort) : (s.setPort h p).config = s.config := rfl
@[simp] theorem State.setPort_tick (h : HostId) (p : HostPort) : (s.setPort h p).tick = s.tick := rfl
@[simp] theorem State.setPort_ports (h : HostId) (p : HostPort) : (s.setPort h p).ports = s.ports.set h p := rfl
@[simp] theorem State.setPort_units (h : HostId) (p : HostPort) : (s.setPort h p).units = s.units := rfl
@[simp] theorem State.setPort_frames (h : HostId) (p : HostPort) : (s.setPort h p).frames = s.frames := rfl
@[simp] theorem State.setPort_recalls (h : HostId) (p : HostPort) : (s.setPort h p).recalls = s.recalls := rfl
@[simp] theorem State.setPort_offers (h : HostId) (p : HostPort) : (s.setPort h p).offers = s.offers := rfl
@[simp] theorem State.setPort_waitList (h : HostId) (p : HostPort) : (s.setPort h p).waitList = s.waitList := rfl
@[simp] theorem State.setPort_owned (h : HostId) (p : HostPort) : (s.setPort h p).owned = s.owned := rfl
@[simp] theorem State.setPort_waiting (h : HostId) (p : HostPort) : (s.setPort h p).waiting = s.waiting := rfl
@[simp] theorem State.setPort_cmdPointer (h : HostId) (p : HostPort) :
    (s.setPort h p).cmdPointer = s.cmdPointer := rfl
@[simp] theorem State.setPort_departures (h : HostId) (p : HostPort) :
    (s.setPort h p).departures = s.departures := rfl
@[simp] theorem State.setPort_drainChecks (h : HostId) (p : HostPort) :
    (s.setPort h p).drainChecks = s.drainChecks := rfl
@[simp] theorem State.setPort_freeList (h : HostId) (p : HostPort) : (s.setPort h p).freeList = s.freeList := rfl
@[simp] theorem State.setPort_scrubQueue (h : HostId) (p : HostPort) :
    (s.setPort h p).scrubQueue = s.scrubQueue := rfl
@[simp] theorem State.setPort_scrubPos (h : HostId) (p : HostPort) : (s.setPort h p).scrubPos = s.scrubPos := rfl
@[simp] theorem State.setPort_job (h : HostId) (p : HostPort) : (s.setPort h p).job = s.job := rfl
@[simp] theorem State.setPort_portPointer (h : HostId) (p : HostPort) :
    (s.setPort h p).portPointer = s.portPointer := rfl
@[simp] theorem State.setPort_turn (h : HostId) (p : HostPort) : (s.setPort h p).turn = s.turn := rfl
@[simp] theorem State.setPort_mem (h : HostId) (p : HostPort) : (s.setPort h p).mem = s.mem := rfl
@[simp] theorem State.setPort_blocks (h : HostId) (p : HostPort) : (s.setPort h p).blocks = s.blocks := rfl
@[simp] theorem State.setPort_resetCount (h : HostId) (p : HostPort) :
    (s.setPort h p).resetCount = s.resetCount := rfl
@[simp] theorem State.setPort_fresh (h : HostId) (p : HostPort) : (s.setPort h p).fresh = s.fresh := rfl

/-- A part read after it is written. -/
@[simp] theorem State.setPort_port (h : HostId) (p : HostPort) (k : HostId) :
    (s.setPort h p).port k = if k = h then p else s.port k := PerHost.get_set _ _ _ _

@[simp] theorem State.setPort_unit (h : HostId) (p : HostPort) (k : HostId) : (s.setPort h p).unit k = s.unit k := rfl
@[simp] theorem State.setPort_frame (h : HostId) (p : HostPort) (g : Nat) : (s.setPort h p).frame g = s.frame g := rfl
@[simp] theorem State.setPort_record (h : HostId) (p : HostPort) (j : Nat) :
    (s.setPort h p).record j = s.record j := rfl
@[simp] theorem State.setPort_offerSlot (h : HostId) (p : HostPort) (j : Nat) :
    (s.setPort h p).offerSlot j = s.offerSlot j := rfl
@[simp] theorem State.setPort_frameCount (h : HostId) (p : HostPort) :
    (s.setPort h p).frameCount = s.frameCount := rfl
@[simp] theorem State.setPort_quotaOf (h : HostId) (p : HostPort) (k : HostId) :
    (s.setPort h p).quotaOf k = s.quotaOf k := rfl

/-! ### setUnit -/

@[simp] theorem State.setUnit_pending (h : HostId) (u : TranslationUnit) : (s.setUnit h u).pending = s.pending := rfl
@[simp] theorem State.setUnit_resetAsserted (h : HostId) (u : TranslationUnit) :
    (s.setUnit h u).resetAsserted = s.resetAsserted := rfl
@[simp] theorem State.setUnit_strap (h : HostId) (u : TranslationUnit) : (s.setUnit h u).strap = s.strap := rfl
@[simp] theorem State.setUnit_promSelect (h : HostId) (u : TranslationUnit) :
    (s.setUnit h u).promSelect = s.promSelect := rfl
@[simp] theorem State.setUnit_load (h : HostId) (u : TranslationUnit) : (s.setUnit h u).load = s.load := rfl
@[simp] theorem State.setUnit_config (h : HostId) (u : TranslationUnit) : (s.setUnit h u).config = s.config := rfl
@[simp] theorem State.setUnit_tick (h : HostId) (u : TranslationUnit) : (s.setUnit h u).tick = s.tick := rfl
@[simp] theorem State.setUnit_ports (h : HostId) (u : TranslationUnit) : (s.setUnit h u).ports = s.ports := rfl
@[simp] theorem State.setUnit_units (h : HostId) (u : TranslationUnit) :
    (s.setUnit h u).units = s.units.set h u := rfl
@[simp] theorem State.setUnit_frames (h : HostId) (u : TranslationUnit) : (s.setUnit h u).frames = s.frames := rfl
@[simp] theorem State.setUnit_recalls (h : HostId) (u : TranslationUnit) : (s.setUnit h u).recalls = s.recalls := rfl
@[simp] theorem State.setUnit_offers (h : HostId) (u : TranslationUnit) : (s.setUnit h u).offers = s.offers := rfl
@[simp] theorem State.setUnit_waitList (h : HostId) (u : TranslationUnit) :
    (s.setUnit h u).waitList = s.waitList := rfl
@[simp] theorem State.setUnit_owned (h : HostId) (u : TranslationUnit) : (s.setUnit h u).owned = s.owned := rfl
@[simp] theorem State.setUnit_waiting (h : HostId) (u : TranslationUnit) : (s.setUnit h u).waiting = s.waiting := rfl
@[simp] theorem State.setUnit_cmdPointer (h : HostId) (u : TranslationUnit) :
    (s.setUnit h u).cmdPointer = s.cmdPointer := rfl
@[simp] theorem State.setUnit_departures (h : HostId) (u : TranslationUnit) :
    (s.setUnit h u).departures = s.departures := rfl
@[simp] theorem State.setUnit_drainChecks (h : HostId) (u : TranslationUnit) :
    (s.setUnit h u).drainChecks = s.drainChecks := rfl
@[simp] theorem State.setUnit_freeList (h : HostId) (u : TranslationUnit) :
    (s.setUnit h u).freeList = s.freeList := rfl
@[simp] theorem State.setUnit_scrubQueue (h : HostId) (u : TranslationUnit) :
    (s.setUnit h u).scrubQueue = s.scrubQueue := rfl
@[simp] theorem State.setUnit_scrubPos (h : HostId) (u : TranslationUnit) :
    (s.setUnit h u).scrubPos = s.scrubPos := rfl
@[simp] theorem State.setUnit_job (h : HostId) (u : TranslationUnit) : (s.setUnit h u).job = s.job := rfl
@[simp] theorem State.setUnit_portPointer (h : HostId) (u : TranslationUnit) :
    (s.setUnit h u).portPointer = s.portPointer := rfl
@[simp] theorem State.setUnit_turn (h : HostId) (u : TranslationUnit) : (s.setUnit h u).turn = s.turn := rfl
@[simp] theorem State.setUnit_mem (h : HostId) (u : TranslationUnit) : (s.setUnit h u).mem = s.mem := rfl
@[simp] theorem State.setUnit_blocks (h : HostId) (u : TranslationUnit) : (s.setUnit h u).blocks = s.blocks := rfl
@[simp] theorem State.setUnit_resetCount (h : HostId) (u : TranslationUnit) :
    (s.setUnit h u).resetCount = s.resetCount := rfl
@[simp] theorem State.setUnit_fresh (h : HostId) (u : TranslationUnit) : (s.setUnit h u).fresh = s.fresh := rfl
@[simp] theorem State.setUnit_port (h : HostId) (u : TranslationUnit) (k : HostId) :
    (s.setUnit h u).port k = s.port k := rfl

/-- A part read after it is written. -/
@[simp] theorem State.setUnit_unit (h : HostId) (u : TranslationUnit) (k : HostId) :
    (s.setUnit h u).unit k = if k = h then u else s.unit k := PerHost.get_set _ _ _ _

@[simp] theorem State.setUnit_frame (h : HostId) (u : TranslationUnit) (g : Nat) :
    (s.setUnit h u).frame g = s.frame g := rfl
@[simp] theorem State.setUnit_record (h : HostId) (u : TranslationUnit) (j : Nat) :
    (s.setUnit h u).record j = s.record j := rfl
@[simp] theorem State.setUnit_offerSlot (h : HostId) (u : TranslationUnit) (j : Nat) :
    (s.setUnit h u).offerSlot j = s.offerSlot j := rfl
@[simp] theorem State.setUnit_frameCount (h : HostId) (u : TranslationUnit) :
    (s.setUnit h u).frameCount = s.frameCount := rfl
@[simp] theorem State.setUnit_quotaOf (h : HostId) (u : TranslationUnit) (k : HostId) :
    (s.setUnit h u).quotaOf k = s.quotaOf k := rfl

/-! ### setFrame -/

@[simp] theorem State.setFrame_pending (f : Nat) (r : FrameRecord) : (s.setFrame f r).pending = s.pending := rfl
@[simp] theorem State.setFrame_resetAsserted (f : Nat) (r : FrameRecord) :
    (s.setFrame f r).resetAsserted = s.resetAsserted := rfl
@[simp] theorem State.setFrame_strap (f : Nat) (r : FrameRecord) : (s.setFrame f r).strap = s.strap := rfl
@[simp] theorem State.setFrame_promSelect (f : Nat) (r : FrameRecord) :
    (s.setFrame f r).promSelect = s.promSelect := rfl
@[simp] theorem State.setFrame_load (f : Nat) (r : FrameRecord) : (s.setFrame f r).load = s.load := rfl
@[simp] theorem State.setFrame_config (f : Nat) (r : FrameRecord) : (s.setFrame f r).config = s.config := rfl
@[simp] theorem State.setFrame_tick (f : Nat) (r : FrameRecord) : (s.setFrame f r).tick = s.tick := rfl
@[simp] theorem State.setFrame_ports (f : Nat) (r : FrameRecord) : (s.setFrame f r).ports = s.ports := rfl
@[simp] theorem State.setFrame_units (f : Nat) (r : FrameRecord) : (s.setFrame f r).units = s.units := rfl
@[simp] theorem State.setFrame_frames (f : Nat) (r : FrameRecord) :
    (s.setFrame f r).frames = Table.set FrameRecord.initial s.frames f r := rfl
@[simp] theorem State.setFrame_recalls (f : Nat) (r : FrameRecord) : (s.setFrame f r).recalls = s.recalls := rfl
@[simp] theorem State.setFrame_offers (f : Nat) (r : FrameRecord) : (s.setFrame f r).offers = s.offers := rfl
@[simp] theorem State.setFrame_waitList (f : Nat) (r : FrameRecord) : (s.setFrame f r).waitList = s.waitList := rfl
@[simp] theorem State.setFrame_owned (f : Nat) (r : FrameRecord) : (s.setFrame f r).owned = s.owned := rfl
@[simp] theorem State.setFrame_waiting (f : Nat) (r : FrameRecord) : (s.setFrame f r).waiting = s.waiting := rfl
@[simp] theorem State.setFrame_cmdPointer (f : Nat) (r : FrameRecord) :
    (s.setFrame f r).cmdPointer = s.cmdPointer := rfl
@[simp] theorem State.setFrame_departures (f : Nat) (r : FrameRecord) :
    (s.setFrame f r).departures = s.departures := rfl
@[simp] theorem State.setFrame_drainChecks (f : Nat) (r : FrameRecord) :
    (s.setFrame f r).drainChecks = s.drainChecks := rfl
@[simp] theorem State.setFrame_freeList (f : Nat) (r : FrameRecord) : (s.setFrame f r).freeList = s.freeList := rfl
@[simp] theorem State.setFrame_scrubQueue (f : Nat) (r : FrameRecord) :
    (s.setFrame f r).scrubQueue = s.scrubQueue := rfl
@[simp] theorem State.setFrame_scrubPos (f : Nat) (r : FrameRecord) : (s.setFrame f r).scrubPos = s.scrubPos := rfl
@[simp] theorem State.setFrame_job (f : Nat) (r : FrameRecord) : (s.setFrame f r).job = s.job := rfl
@[simp] theorem State.setFrame_portPointer (f : Nat) (r : FrameRecord) :
    (s.setFrame f r).portPointer = s.portPointer := rfl
@[simp] theorem State.setFrame_turn (f : Nat) (r : FrameRecord) : (s.setFrame f r).turn = s.turn := rfl
@[simp] theorem State.setFrame_mem (f : Nat) (r : FrameRecord) : (s.setFrame f r).mem = s.mem := rfl
@[simp] theorem State.setFrame_blocks (f : Nat) (r : FrameRecord) : (s.setFrame f r).blocks = s.blocks := rfl
@[simp] theorem State.setFrame_resetCount (f : Nat) (r : FrameRecord) :
    (s.setFrame f r).resetCount = s.resetCount := rfl
@[simp] theorem State.setFrame_fresh (f : Nat) (r : FrameRecord) : (s.setFrame f r).fresh = s.fresh := rfl
@[simp] theorem State.setFrame_port (f : Nat) (r : FrameRecord) (k : HostId) :
    (s.setFrame f r).port k = s.port k := rfl
@[simp] theorem State.setFrame_unit (f : Nat) (r : FrameRecord) (k : HostId) :
    (s.setFrame f r).unit k = s.unit k := rfl

/-- A part read after it is written. -/
@[simp] theorem State.setFrame_frame (f : Nat) (r : FrameRecord) (g : Nat) :
    (s.setFrame f r).frame g = if g = f then r else s.frame g := Table.get_set _ _ _ _ _

@[simp] theorem State.setFrame_record (f : Nat) (r : FrameRecord) (j : Nat) :
    (s.setFrame f r).record j = s.record j := rfl
@[simp] theorem State.setFrame_offerSlot (f : Nat) (r : FrameRecord) (j : Nat) :
    (s.setFrame f r).offerSlot j = s.offerSlot j := rfl
@[simp] theorem State.setFrame_frameCount (f : Nat) (r : FrameRecord) :
    (s.setFrame f r).frameCount = s.frameCount := rfl
@[simp] theorem State.setFrame_quotaOf (f : Nat) (r : FrameRecord) (k : HostId) :
    (s.setFrame f r).quotaOf k = s.quotaOf k := rfl

/-! ### setRecord -/

@[simp] theorem State.setRecord_pending (id : Nat) (r : Option RecallRecord) :
    (s.setRecord id r).pending = s.pending := rfl
@[simp] theorem State.setRecord_resetAsserted (id : Nat) (r : Option RecallRecord) :
    (s.setRecord id r).resetAsserted = s.resetAsserted := rfl
@[simp] theorem State.setRecord_strap (id : Nat) (r : Option RecallRecord) : (s.setRecord id r).strap = s.strap := rfl
@[simp] theorem State.setRecord_promSelect (id : Nat) (r : Option RecallRecord) :
    (s.setRecord id r).promSelect = s.promSelect := rfl
@[simp] theorem State.setRecord_load (id : Nat) (r : Option RecallRecord) : (s.setRecord id r).load = s.load := rfl
@[simp] theorem State.setRecord_config (id : Nat) (r : Option RecallRecord) :
    (s.setRecord id r).config = s.config := rfl
@[simp] theorem State.setRecord_tick (id : Nat) (r : Option RecallRecord) : (s.setRecord id r).tick = s.tick := rfl
@[simp] theorem State.setRecord_ports (id : Nat) (r : Option RecallRecord) : (s.setRecord id r).ports = s.ports := rfl
@[simp] theorem State.setRecord_units (id : Nat) (r : Option RecallRecord) : (s.setRecord id r).units = s.units := rfl
@[simp] theorem State.setRecord_frames (id : Nat) (r : Option RecallRecord) :
    (s.setRecord id r).frames = s.frames := rfl
@[simp] theorem State.setRecord_recalls (id : Nat) (r : Option RecallRecord) :
    (s.setRecord id r).recalls = Table.set none s.recalls id r := rfl
@[simp] theorem State.setRecord_offers (id : Nat) (r : Option RecallRecord) :
    (s.setRecord id r).offers = s.offers := rfl
@[simp] theorem State.setRecord_waitList (id : Nat) (r : Option RecallRecord) :
    (s.setRecord id r).waitList = s.waitList := rfl
@[simp] theorem State.setRecord_owned (id : Nat) (r : Option RecallRecord) : (s.setRecord id r).owned = s.owned := rfl
@[simp] theorem State.setRecord_waiting (id : Nat) (r : Option RecallRecord) :
    (s.setRecord id r).waiting = s.waiting := rfl
@[simp] theorem State.setRecord_cmdPointer (id : Nat) (r : Option RecallRecord) :
    (s.setRecord id r).cmdPointer = s.cmdPointer := rfl
@[simp] theorem State.setRecord_departures (id : Nat) (r : Option RecallRecord) :
    (s.setRecord id r).departures = s.departures := rfl
@[simp] theorem State.setRecord_drainChecks (id : Nat) (r : Option RecallRecord) :
    (s.setRecord id r).drainChecks = s.drainChecks := rfl
@[simp] theorem State.setRecord_freeList (id : Nat) (r : Option RecallRecord) :
    (s.setRecord id r).freeList = s.freeList := rfl
@[simp] theorem State.setRecord_scrubQueue (id : Nat) (r : Option RecallRecord) :
    (s.setRecord id r).scrubQueue = s.scrubQueue := rfl
@[simp] theorem State.setRecord_scrubPos (id : Nat) (r : Option RecallRecord) :
    (s.setRecord id r).scrubPos = s.scrubPos := rfl
@[simp] theorem State.setRecord_job (id : Nat) (r : Option RecallRecord) : (s.setRecord id r).job = s.job := rfl
@[simp] theorem State.setRecord_portPointer (id : Nat) (r : Option RecallRecord) :
    (s.setRecord id r).portPointer = s.portPointer := rfl
@[simp] theorem State.setRecord_turn (id : Nat) (r : Option RecallRecord) : (s.setRecord id r).turn = s.turn := rfl
@[simp] theorem State.setRecord_mem (id : Nat) (r : Option RecallRecord) : (s.setRecord id r).mem = s.mem := rfl
@[simp] theorem State.setRecord_blocks (id : Nat) (r : Option RecallRecord) :
    (s.setRecord id r).blocks = s.blocks := rfl
@[simp] theorem State.setRecord_resetCount (id : Nat) (r : Option RecallRecord) :
    (s.setRecord id r).resetCount = s.resetCount := rfl
@[simp] theorem State.setRecord_fresh (id : Nat) (r : Option RecallRecord) : (s.setRecord id r).fresh = s.fresh := rfl
@[simp] theorem State.setRecord_port (id : Nat) (r : Option RecallRecord) (k : HostId) :
    (s.setRecord id r).port k = s.port k := rfl
@[simp] theorem State.setRecord_unit (id : Nat) (r : Option RecallRecord) (k : HostId) :
    (s.setRecord id r).unit k = s.unit k := rfl
@[simp] theorem State.setRecord_frame (id : Nat) (r : Option RecallRecord) (g : Nat) :
    (s.setRecord id r).frame g = s.frame g := rfl

/-- A part read after it is written. -/
@[simp] theorem State.setRecord_record (id : Nat) (r : Option RecallRecord) (j : Nat) :
    (s.setRecord id r).record j = if j = id then r else s.record j := Table.get_set _ _ _ _ _

@[simp] theorem State.setRecord_offerSlot (id : Nat) (r : Option RecallRecord) (j : Nat) :
    (s.setRecord id r).offerSlot j = s.offerSlot j := rfl
@[simp] theorem State.setRecord_frameCount (id : Nat) (r : Option RecallRecord) :
    (s.setRecord id r).frameCount = s.frameCount := rfl
@[simp] theorem State.setRecord_quotaOf (id : Nat) (r : Option RecallRecord) (k : HostId) :
    (s.setRecord id r).quotaOf k = s.quotaOf k := rfl

/-! ### setOfferSlot -/

@[simp] theorem State.setOfferSlot_pending (i : Nat) (o : OfferSlot) : (s.setOfferSlot i o).pending = s.pending := rfl
@[simp] theorem State.setOfferSlot_resetAsserted (i : Nat) (o : OfferSlot) :
    (s.setOfferSlot i o).resetAsserted = s.resetAsserted := rfl
@[simp] theorem State.setOfferSlot_strap (i : Nat) (o : OfferSlot) : (s.setOfferSlot i o).strap = s.strap := rfl
@[simp] theorem State.setOfferSlot_promSelect (i : Nat) (o : OfferSlot) :
    (s.setOfferSlot i o).promSelect = s.promSelect := rfl
@[simp] theorem State.setOfferSlot_load (i : Nat) (o : OfferSlot) : (s.setOfferSlot i o).load = s.load := rfl
@[simp] theorem State.setOfferSlot_config (i : Nat) (o : OfferSlot) : (s.setOfferSlot i o).config = s.config := rfl
@[simp] theorem State.setOfferSlot_tick (i : Nat) (o : OfferSlot) : (s.setOfferSlot i o).tick = s.tick := rfl
@[simp] theorem State.setOfferSlot_ports (i : Nat) (o : OfferSlot) : (s.setOfferSlot i o).ports = s.ports := rfl
@[simp] theorem State.setOfferSlot_units (i : Nat) (o : OfferSlot) : (s.setOfferSlot i o).units = s.units := rfl
@[simp] theorem State.setOfferSlot_frames (i : Nat) (o : OfferSlot) : (s.setOfferSlot i o).frames = s.frames := rfl
@[simp] theorem State.setOfferSlot_recalls (i : Nat) (o : OfferSlot) : (s.setOfferSlot i o).recalls = s.recalls := rfl
@[simp] theorem State.setOfferSlot_offers (i : Nat) (o : OfferSlot) :
    (s.setOfferSlot i o).offers = Table.set OfferSlot.initial s.offers i o := rfl
@[simp] theorem State.setOfferSlot_waitList (i : Nat) (o : OfferSlot) :
    (s.setOfferSlot i o).waitList = s.waitList := rfl
@[simp] theorem State.setOfferSlot_owned (i : Nat) (o : OfferSlot) : (s.setOfferSlot i o).owned = s.owned := rfl
@[simp] theorem State.setOfferSlot_waiting (i : Nat) (o : OfferSlot) : (s.setOfferSlot i o).waiting = s.waiting := rfl
@[simp] theorem State.setOfferSlot_cmdPointer (i : Nat) (o : OfferSlot) :
    (s.setOfferSlot i o).cmdPointer = s.cmdPointer := rfl
@[simp] theorem State.setOfferSlot_departures (i : Nat) (o : OfferSlot) :
    (s.setOfferSlot i o).departures = s.departures := rfl
@[simp] theorem State.setOfferSlot_drainChecks (i : Nat) (o : OfferSlot) :
    (s.setOfferSlot i o).drainChecks = s.drainChecks := rfl
@[simp] theorem State.setOfferSlot_freeList (i : Nat) (o : OfferSlot) :
    (s.setOfferSlot i o).freeList = s.freeList := rfl
@[simp] theorem State.setOfferSlot_scrubQueue (i : Nat) (o : OfferSlot) :
    (s.setOfferSlot i o).scrubQueue = s.scrubQueue := rfl
@[simp] theorem State.setOfferSlot_scrubPos (i : Nat) (o : OfferSlot) :
    (s.setOfferSlot i o).scrubPos = s.scrubPos := rfl
@[simp] theorem State.setOfferSlot_job (i : Nat) (o : OfferSlot) : (s.setOfferSlot i o).job = s.job := rfl
@[simp] theorem State.setOfferSlot_portPointer (i : Nat) (o : OfferSlot) :
    (s.setOfferSlot i o).portPointer = s.portPointer := rfl
@[simp] theorem State.setOfferSlot_turn (i : Nat) (o : OfferSlot) : (s.setOfferSlot i o).turn = s.turn := rfl
@[simp] theorem State.setOfferSlot_mem (i : Nat) (o : OfferSlot) : (s.setOfferSlot i o).mem = s.mem := rfl
@[simp] theorem State.setOfferSlot_blocks (i : Nat) (o : OfferSlot) : (s.setOfferSlot i o).blocks = s.blocks := rfl
@[simp] theorem State.setOfferSlot_resetCount (i : Nat) (o : OfferSlot) :
    (s.setOfferSlot i o).resetCount = s.resetCount := rfl
@[simp] theorem State.setOfferSlot_fresh (i : Nat) (o : OfferSlot) : (s.setOfferSlot i o).fresh = s.fresh := rfl
@[simp] theorem State.setOfferSlot_port (i : Nat) (o : OfferSlot) (k : HostId) :
    (s.setOfferSlot i o).port k = s.port k := rfl
@[simp] theorem State.setOfferSlot_unit (i : Nat) (o : OfferSlot) (k : HostId) :
    (s.setOfferSlot i o).unit k = s.unit k := rfl
@[simp] theorem State.setOfferSlot_frame (i : Nat) (o : OfferSlot) (g : Nat) :
    (s.setOfferSlot i o).frame g = s.frame g := rfl
@[simp] theorem State.setOfferSlot_record (i : Nat) (o : OfferSlot) (j : Nat) :
    (s.setOfferSlot i o).record j = s.record j := rfl

/-- A part read after it is written. -/
@[simp] theorem State.setOfferSlot_offerSlot (i : Nat) (o : OfferSlot) (j : Nat) :
    (s.setOfferSlot i o).offerSlot j = if j = i then o else s.offerSlot j := Table.get_set _ _ _ _ _

@[simp] theorem State.setOfferSlot_frameCount (i : Nat) (o : OfferSlot) :
    (s.setOfferSlot i o).frameCount = s.frameCount := rfl
@[simp] theorem State.setOfferSlot_quotaOf (i : Nat) (o : OfferSlot) (k : HostId) :
    (s.setOfferSlot i o).quotaOf k = s.quotaOf k := rfl

end Sys2Proof.Machine
end

