-- ==== Sys2Proof/Laws/Ops.lean ====
section
/-! SUPPORT. What each shared operation can do, said once: its frame, and what it makes of the parts it touches. -/

namespace Sys2Proof.Machine

variable (s : State)

/-! ### Posting of records -/

theorem State.notify_eq (h : HostId) (e : Event) : s.notify h e = s.setPort h ((s.port h).postNotice e) := rfl

theorem State.complete_eq (h : HostId) (tag : BitVec 16) (code : Byte) (r : Result) (p : Payload) :
    s.complete h tag code r p = s.setPort h ((s.port h).postCompletion (.completion tag code r p)) := rfl

theorem State.finish_eq (h : HostId) (d : Desc) (r : Result) :
    s.finish h d r = s.setPort h ((s.port h).postCompletion (.completion d.tag d.code r .none)) := rfl

theorem State.send_eq (h : HostId) (m : LinkMessage) : s.send h m = s.setPort h ((s.port h).send m) := rfl

/-- Notices change nothing but the ports. -/
theorem State.notifyAll_frame (l : List HostId) (e : Event) :
    s.notifyAll l e = { s with ports := (s.notifyAll l e).ports } := by
  induction l generalizing s with
  | nil => rfl
  | cons h rest ih =>
    have := ih (s.notify h e)
    exact this

/-- A host told once finds the notice posted; a host not told finds its port as it was. -/
theorem State.notifyAll_port {l : List HostId} (hl : l.Nodup) (e : Event) (k : HostId) :
    (s.notifyAll l e).port k = if k ∈ l then (s.port k).postNotice e else s.port k := by
  induction l generalizing s with
  | nil => simp [State.notifyAll]
  | cons h rest ih =>
    obtain ⟨hh, hr⟩ := List.nodup_cons.mp hl
    have step : s.notifyAll (h :: rest) e = (s.notify h e).notifyAll rest e := rfl
    rw [step, ih _ hr, State.notify_eq, State.setPort_port]
    by_cases hk : k = h
    · subst hk; simp [hh]
    · simp [hk]

theorem HostPort.postNotice_of_not_member {p : HostPort} (e : Event) (hp : p.portState ≠ .member) :
    p.postNotice e = p := by simp [HostPort.postNotice, hp]

theorem HostPort.postNotice_room {p : HostPort} (e : Event) (hp : p.portState = .member)
    (hr : p.hasFreeEntry = true) : p.postNotice e = { p with events := p.events ++ [e] }.refreshHirq := by
  simp [HostPort.postNotice, hp, hr]

theorem HostPort.postNotice_full {p : HostPort} (e : Event) (hp : p.portState = .member)
    (hr : p.hasFreeEntry = false) : p.postNotice e = { p with noticeLost := true }.refreshHirq := by
  simp [HostPort.postNotice, hp, hr]

/-- A notice changes neither the port's state nor its link, its queue or its reservations. -/
@[simp] theorem HostPort.postNotice_portState (p : HostPort) (e : Event) : (p.postNotice e).portState = p.portState := by
  unfold HostPort.postNotice
  split
  · split <;> rfl
  · rfl

@[simp] theorem HostPort.postNotice_linkUp (p : HostPort) (e : Event) : (p.postNotice e).linkUp = p.linkUp := by
  unfold HostPort.postNotice
  split
  · split <;> rfl
  · rfl

@[simp] theorem HostPort.postNotice_queue (p : HostPort) (e : Event) : (p.postNotice e).queue = p.queue := by
  unfold HostPort.postNotice
  split
  · split <;> rfl
  · rfl

@[simp] theorem HostPort.postNotice_reserved (p : HostPort) (e : Event) : (p.postNotice e).reserved = p.reserved := by
  unfold HostPort.postNotice
  split
  · split <;> rfl
  · rfl

@[simp] theorem HostPort.reportFault_linkUp (p : HostPort) (r : FaultRecord) : (p.reportFault r).linkUp = p.linkUp := by
  unfold HostPort.reportFault
  split
  · split <;> rfl
  · rfl

@[simp] theorem HostPort.reportFault_sent (p : HostPort) (r : FaultRecord) : (p.reportFault r).sent = p.sent := by
  unfold HostPort.reportFault
  split
  · split <;> rfl
  · rfl

theorem suppressTail_append (l : List FaultRecord) (r : FaultRecord) :
    suppressTail (l ++ [r]) = l ++ [{ r with suppressed := min 255 (r.suppressed + 1) }] := by
  induction l with
  | nil => rfl
  | cons x l ih =>
    cases l with
    | nil => rfl
    | cons y l =>
      simp only [List.cons_append, suppressTail] at ih ⊢
      rw [ih]

/-! ### Takings -/

/-- The host the arbiter picks is eligible, and the descriptor is the head of its queue. -/
theorem State.picked_eligible {s : State} {h : HostId} {raw : List Byte} (hp : s.picked = some (h, raw)) :
    (s.port h).eligible = true ∧ (s.port h).queue = raw :: (s.port h).queue.tail := by
  unfold State.picked at hp
  split at hp
  · next k hk =>
    split at hp
    · next r rest hq =>
      simp only [Option.some.injEq, Prod.mk.injEq] at hp
      obtain ⟨rfl, rfl⟩ := hp
      have he := List.find?_some hk
      exact ⟨he, by simp [hq]⟩
    · cases hp
  · cases hp

theorem State.picked_member {s : State} {h : HostId} {raw : List Byte} (hp : s.picked = some (h, raw)) :
    (s.port h).portState = .member := by
  have := (State.picked_eligible hp).1
  simp [HostPort.eligible] at this
  exact this.1.1

theorem State.picked_room {s : State} {h : HostId} {raw : List Byte} (hp : s.picked = some (h, raw)) :
    (s.port h).events.length + (s.port h).reserved < 64 := by
  have := (State.picked_eligible hp).1
  simp [HostPort.eligible, HostPort.hasFreeEntry, Config.eventQueueDepth] at this
  exact this.1.2

/-- A taking always answers a next state. -/
theorem taking_answers (isRow : Byte → Bool) (act : HostId → Desc → State → State) (s : State) :
    ∃ t, taking isRow act s = .next t := by
  unfold taking
  split
  · exact ⟨_, rfl⟩
  · split <;> exact ⟨_, rfl⟩

/-- A taking of its row's descriptor is the command's effect after the descriptor has left its queue. -/
theorem taking_of_picked {isRow : Byte → Bool} {act : HostId → Desc → State → State} {s : State} {h : HostId}
    {raw : List Byte} (hp : s.picked = some (h, raw)) (hr : isRow (Desc.ofBytes raw).code = true) :
    taking isRow act s = .next (act h (Desc.ofBytes raw) (s.beginTaking h)) := by
  simp [taking, hp, hr]

/-- Everything a taking can do: nothing, or the command's effect on a picked descriptor of its row. -/
theorem taking_cases {isRow : Byte → Bool} {act : HostId → Desc → State → State} {s t : State}
    (ht : taking isRow act s = .next t) :
    t = s ∨ ∃ h raw, s.picked = some (h, raw) ∧ isRow (Desc.ofBytes raw).code = true ∧
      t = act h (Desc.ofBytes raw) (s.beginTaking h) := by
  unfold taking at ht
  split at ht
  · exact Or.inl (by simpa using ht.symm)
  · next h raw hp =>
    split at ht
    · next hr => exact Or.inr ⟨h, raw, hp, hr, by simpa using ht.symm⟩
    · exact Or.inl (by simpa using ht.symm)

theorem State.beginTaking_eq (h : HostId) :
    s.beginTaking h =
      { s.setPort h { s.port h with queue := (s.port h).queue.tail, reserved := (s.port h).reserved + 1 } with
        cmdPointer := h + 1 } := rfl

/-! ### Entry into SCRUBBING -/

/-- Entry into SCRUBBING changes the owned counts, the frame, the Scrub Queue and the scrubber's place alone. -/
theorem State.enterScrubbing_eq (f : Nat) :
    s.enterScrubbing f =
      { s with
        owned := (s.enterScrubbing f).owned, frames := (s.enterScrubbing f).frames
        scrubPos := (s.enterScrubbing f).scrubPos, scrubQueue := (s.enterScrubbing f).scrubQueue } := by
  unfold State.enterScrubbing
  split
  · cases (s.frame f).owner <;> rfl
  · rfl

/-- R5: what entry into SCRUBBING makes of the Frame Table. -/
theorem State.enterScrubbing_frame (f g : Nat) :
    (s.enterScrubbing f).frame g =
      if g = f ∧ (s.frame f).isOwned = true then (s.frame f).toScrubbing else s.frame g := by
  unfold State.enterScrubbing
  have lowered : ∀ o k, (s.lowerOwned o).frame k = s.frame k := by intro o k; cases o <;> rfl
  by_cases c : (s.frame f).isOwned = true
  · rw [if_pos c]
    show (State.setFrame _ _ _).frame g = _
    rw [State.setFrame_frame]
    by_cases h : g = f
    · rw [if_pos h, if_pos ⟨h, c⟩, lowered]
    · rw [if_neg h, if_neg (fun x => h x.1), lowered]
  · rw [if_neg c, if_neg (fun x => c x.2)]

end Sys2Proof.Machine
end

