-- ==== Sys2Proof/Laws/Takings.lean ====
section
/-! SUPPORT. What a taking leaves as it was, and what an answer at once makes of it. -/

namespace Sys2Proof.Machine

variable (s : State) (h : HostId)

@[simp] theorem State.setPort_setPort (p q : HostPort) : (s.setPort h p).setPort h q = s.setPort h q := by
  simp [State.setPort]

@[simp] theorem State.setPort_same : s.setPort h (s.port h) = s := by simp [State.setPort, State.port]

@[simp] theorem State.setUnit_same : s.setUnit h (s.unit h) = s := by simp [State.setUnit, State.unit]

theorem State.setPort_comm {k : HostId} (p q : HostPort) (hne : h ≠ k) :
    (s.setPort h p).setPort k q = (s.setPort k q).setPort h p := by
  simp [State.setPort, PerHost.set_comm _ _ _ hne]

/-! ### What a taking leaves as it was -/

@[simp] theorem State.beginTaking_port (k : HostId) : (s.beginTaking h).port k =
    if k = h then { s.port h with queue := (s.port h).queue.tail, reserved := (s.port h).reserved + 1 }
    else s.port k := State.setPort_port s h _ k

@[simp] theorem State.beginTaking_portState (k : HostId) :
    ((s.beginTaking h).port k).portState = (s.port k).portState := by
  rw [State.beginTaking_port]
  split
  · next hk => rw [hk]
  · rfl

@[simp] theorem State.beginTaking_isMember (k : HostId) : (s.beginTaking h).isMember k = s.isMember k := by
  simp only [State.isMember, State.beginTaking_portState]

@[simp] theorem State.beginTaking_isLeaving (k : HostId) : (s.beginTaking h).isLeaving k = s.isLeaving k := by
  simp only [State.isLeaving, State.beginTaking_portState]

@[simp] theorem State.beginTaking_cmdPointer : (s.beginTaking h).cmdPointer = h + 1 := rfl
@[simp] theorem State.beginTaking_unit (k : HostId) : (s.beginTaking h).unit k = s.unit k := rfl
@[simp] theorem State.beginTaking_frame (f : Nat) : (s.beginTaking h).frame f = s.frame f := rfl
@[simp] theorem State.beginTaking_record (id : Nat) : (s.beginTaking h).record id = s.record id := rfl
@[simp] theorem State.beginTaking_offerSlot (i : Nat) : (s.beginTaking h).offerSlot i = s.offerSlot i := rfl
@[simp] theorem State.beginTaking_openOffer (hd : Handle) : (s.beginTaking h).openOffer hd = s.openOffer hd := rfl
@[simp] theorem State.beginTaking_freeRecordId : (s.beginTaking h).freeRecordId = s.freeRecordId := rfl
@[simp] theorem State.beginTaking_freeOfferSlot : (s.beginTaking h).freeOfferSlot = s.freeOfferSlot := rfl
@[simp] theorem State.beginTaking_recallOf (f : Nat) (k : HostId) :
    (s.beginTaking h).recallOf f k = s.recallOf f k := rfl
@[simp] theorem State.beginTaking_frameCount : (s.beginTaking h).frameCount = s.frameCount := rfl
@[simp] theorem State.beginTaking_quotaOf (k : HostId) : (s.beginTaking h).quotaOf k = s.quotaOf k := rfl
@[simp] theorem State.beginTaking_graceOf (n : Nat) : (s.beginTaking h).graceOf n = s.graceOf n := rfl
@[simp] theorem State.beginTaking_lifetimeOf (n : Nat) : (s.beginTaking h).lifetimeOf n = s.lifetimeOf n := rfl
@[simp] theorem State.beginTaking_owned : (s.beginTaking h).owned = s.owned := rfl
@[simp] theorem State.beginTaking_waiting : (s.beginTaking h).waiting = s.waiting := rfl
@[simp] theorem State.beginTaking_waitList : (s.beginTaking h).waitList = s.waitList := rfl
@[simp] theorem State.beginTaking_waitEntry (k : HostId) : (s.beginTaking h).waitEntry k = s.waitEntry k := rfl
@[simp] theorem State.beginTaking_waitsAtHead (k : HostId) : (s.beginTaking h).waitsAtHead k = s.waitsAtHead k := rfl
@[simp] theorem State.beginTaking_freeList : (s.beginTaking h).freeList = s.freeList := rfl
@[simp] theorem State.beginTaking_scrubQueue : (s.beginTaking h).scrubQueue = s.scrubQueue := rfl
@[simp] theorem State.beginTaking_tick : (s.beginTaking h).tick = s.tick := rfl
@[simp] theorem State.beginTaking_config : (s.beginTaking h).config = s.config := rfl
@[simp] theorem State.beginTaking_load : (s.beginTaking h).load = s.load := rfl
@[simp] theorem State.beginTaking_departures : (s.beginTaking h).departures = s.departures := rfl

@[simp] theorem State.beginTaking_ownerLeaving (f : Nat) : (s.beginTaking h).ownerLeaving f = s.ownerLeaving f := by
  simp only [State.ownerLeaving, State.beginTaking_frame, State.beginTaking_isLeaving]

/-! ### Answers at once -/

variable {s h}

/-- The completion of a command in its own taking finds its reservation. -/
theorem HostPort.complete_taken {p : HostPort} (hm : p.portState = .member) (e : Event) :
    ({ p with queue := p.queue.tail, reserved := p.reserved + 1 } : HostPort).postCompletion e = p.answered e := by
  simp [HostPort.postCompletion, hm, HostPort.answered, HostPort.refreshHirq, HostPort.hirqCondition]

theorem State.complete_taken (hm : (s.port h).portState = .member) (tag : BitVec 16) (code : Byte) (r : Result)
    (p : Payload) : (s.beginTaking h).complete h tag code r p = s.answered h (.completion tag code r p) := by
  rw [State.complete_eq, State.beginTaking_port, if_pos rfl, HostPort.complete_taken hm]
  simp [State.beginTaking, State.answered, State.setPort]

theorem State.finish_taken (hm : (s.port h).portState = .member) (d : Desc) (r : Result) :
    (s.beginTaking h).finish h d r = s.replied h d r := State.complete_taken hm d.tag d.code r .none

/-- A command of a row that is taken acts after its descriptor has left the queue. -/
theorem State.Takes.taking {d : Desc} {code : Byte} (ht : s.Takes h d code) (isRow : Byte → Bool)
    (act : HostId → Desc → State → State) (hr : isRow code = true) :
    Machine.taking isRow act s = .next (act h d (s.beginTaking h)) := by
  obtain ⟨raw, hp, hd, hc⟩ := ht
  subst hd
  exact taking_of_picked hp (by rw [hc]; exact hr)

theorem State.Takes.member {d : Desc} {code : Byte} (ht : s.Takes h d code) : (s.port h).portState = .member := by
  obtain ⟨raw, hp, -, -⟩ := ht
  exact State.picked_member hp

theorem State.Takes.code_eq {d : Desc} {code : Byte} (ht : s.Takes h d code) : d.code = code := by
  obtain ⟨raw, -, -, hc⟩ := ht
  exact hc

/-! ### Completions and updates of other parts -/

variable (tag : BitVec 16) (code : Byte) (r : Result) (p : Payload)

theorem State.complete_setFrame (f : Nat) (fr : FrameRecord) :
    (s.setFrame f fr).complete h tag code r p = (s.complete h tag code r p).setFrame f fr := rfl

theorem State.complete_setUnit (k : HostId) (u : TranslationUnit) :
    (s.setUnit k u).complete h tag code r p = (s.complete h tag code r p).setUnit k u := rfl

theorem State.complete_setRecord (id : Nat) (x : Option RecallRecord) :
    (s.setRecord id x).complete h tag code r p = (s.complete h tag code r p).setRecord id x := rfl

theorem State.complete_setOfferSlot (i : Nat) (o : OfferSlot) :
    (s.setOfferSlot i o).complete h tag code r p = (s.complete h tag code r p).setOfferSlot i o := rfl

/-- A notice to another host and a completion do not meet. -/
theorem State.complete_notify {k : HostId} (hne : k ≠ h) (e : Event) :
    (s.notify k e).complete h tag code r p = (s.complete h tag code r p).notify k e := by
  simp only [State.complete_eq, State.notify_eq, State.setPort_port, if_neg hne, if_neg (Ne.symm hne)]
  exact State.setPort_comm _ _ _ _ hne

end Sys2Proof.Machine
end

