-- ==== Sys2Proof/Laws/Commands.lean ====
section
/-! SUPPORT. Each taking's command as its effect: what `exec` answers once the arbiter takes the row's descriptor. -/

namespace Sys2Proof.Machine

variable {s : State} {h : HostId} {d : Desc}

theorem exec_alloc (ht : s.Takes h d codeAlloc) :
    exec .alloc s = .next (allocEffect h d (s.beginTaking h)) :=
  ht.taking (fun c => c == codeAlloc) allocEffect (by rfl)

theorem exec_cancelAlloc (ht : s.Takes h d codeCancelAlloc) :
    exec .cancelAlloc s = .next (cancelAllocEffect h d (s.beginTaking h)) :=
  ht.taking (fun c => c == codeCancelAlloc) cancelAllocEffect (by rfl)

theorem exec_setLabel (ht : s.Takes h d codeSetLabel) :
    exec .setLabel s = .next (setLabelEffect h d (s.beginTaking h)) :=
  ht.taking (fun c => c == codeSetLabel) setLabelEffect (by rfl)

theorem exec_setInherit (ht : s.Takes h d codeSetInherit) :
    exec .setInherit s = .next (setInheritEffect h d (s.beginTaking h)) :=
  ht.taking (fun c => c == codeSetInherit) setInheritEffect (by rfl)

theorem exec_queryFrame (ht : s.Takes h d codeQueryFrame) :
    exec .queryFrame s = .next (queryFrameEffect h d (s.beginTaking h)) :=
  ht.taking (fun c => c == codeQueryFrame) queryFrameEffect (by rfl)

theorem exec_free (ht : s.Takes h d codeFree) :
    exec .free s = .next (freeEffect h d (s.beginTaking h)) :=
  ht.taking (fun c => c == codeFree) freeEffect (by rfl)

theorem exec_grant (ht : s.Takes h d codeGrant) :
    exec .grant s = .next (grantEffect h d (s.beginTaking h)) :=
  ht.taking (fun c => c == codeGrant) grantEffect (by rfl)

theorem exec_revoke (ht : s.Takes h d codeRevoke) :
    exec .revoke s = .next (revokeEffect h d (s.beginTaking h)) :=
  ht.taking (fun c => c == codeRevoke) revokeEffect (by rfl)

theorem exec_release (ht : s.Takes h d codeRelease) :
    exec .release s = .next (releaseEffect h d (s.beginTaking h)) :=
  ht.taking (fun c => c == codeRelease) releaseEffect (by rfl)

theorem exec_offer (ht : s.Takes h d codeOffer) :
    exec .offer s = .next (offerEffect h d (s.beginTaking h)) :=
  ht.taking (fun c => c == codeOffer) offerEffect (by rfl)

theorem exec_accept (ht : s.Takes h d codeAccept) :
    exec .accept s = .next (acceptEffect h d (s.beginTaking h)) :=
  ht.taking (fun c => c == codeAccept) acceptEffect (by rfl)

theorem exec_decline (ht : s.Takes h d codeDecline) :
    exec .decline s = .next (declineEffect h d (s.beginTaking h)) :=
  ht.taking (fun c => c == codeDecline) declineEffect (by rfl)

theorem exec_withdraw (ht : s.Takes h d codeWithdraw) :
    exec .withdraw s = .next (withdrawEffect h d (s.beginTaking h)) :=
  ht.taking (fun c => c == codeWithdraw) withdrawEffect (by rfl)

theorem exec_setWindow (ht : s.Takes h d codeSetWindow) :
    exec .setWindow s = .next (setWindowEffect h d (s.beginTaking h)) :=
  ht.taking (fun c => c == codeSetWindow) setWindowEffect (by rfl)

theorem exec_clearWindow (ht : s.Takes h d codeClearWindow) :
    exec .clearWindow s = .next (clearWindowEffect h d (s.beginTaking h)) :=
  ht.taking (fun c => c == codeClearWindow) clearWindowEffect (by rfl)

theorem exec_mapSlot (ht : s.Takes h d codeMapSlot) :
    exec .mapSlot s = .next (mapSlotEffect h d (s.beginTaking h)) :=
  ht.taking (fun c => c == codeMapSlot) mapSlotEffect (by rfl)

theorem exec_unmapSlot (ht : s.Takes h d codeUnmapSlot) :
    exec .unmapSlot s = .next (unmapSlotEffect h d (s.beginTaking h)) :=
  ht.taking (fun c => c == codeUnmapSlot) unmapSlotEffect (by rfl)

theorem exec_queryHost (ht : s.Takes h d codeQueryHost) :
    exec .queryHost s = .next (queryHostEffect h d (s.beginTaking h)) :=
  ht.taking (fun c => c == codeQueryHost) queryHostEffect (by rfl)

theorem exec_leave (ht : s.Takes h d codeLeave) :
    exec .leave s = .next (leaveEffect h d (s.beginTaking h)) :=
  ht.taking (fun c => c == codeLeave) leaveEffect (by rfl)

theorem exec_badCommand {code : Byte} (ht : s.Takes h d code) (hc : codeKnown code = false) :
    exec .badCommand s = .next (badCommandEffect h d (s.beginTaking h)) :=
  ht.taking (fun c => !codeKnown c) badCommandEffect (by simp [hc])

end Sys2Proof.Machine
end

