-- ==== Sys2Proof/Laws/Frames.lean ====
section
/-! SUPPORT. What the shared operations of the Map Controller leave alone: everything but the ports, the Map Controller's
own tables and the Frame Supply's lists. -/

namespace Sys2Proof.Machine

/-- `t` differs from `s` at most in the ports, the Map Controller's tables and the Frame Supply's lists: the queue of
commands, start-up state, configuration, tick, units, command pointer and the Pool Controller's state are the same. -/
def State.MapOnly (s t : State) : Prop :=
  t = { s with
    ports := t.ports, frames := t.frames, recalls := t.recalls, offers := t.offers, waitList := t.waitList
    owned := t.owned, waiting := t.waiting, departures := t.departures, drainChecks := t.drainChecks
    freeList := t.freeList, scrubQueue := t.scrubQueue, scrubPos := t.scrubPos }

namespace State.MapOnly

theorem refl (s : State) : s.MapOnly s := rfl

theorem trans {s t u : State} (h : s.MapOnly t) (k : t.MapOnly u) : s.MapOnly u := by
  unfold State.MapOnly at *
  cases s
  cases t
  cases u
  simp only [State.mk.injEq] at *
  simp_all

theorem foldl {α : Type} {f : State → α → State} (hf : ∀ (s : State) (x : α), s.MapOnly (f s x)) (l : List α) (s : State) :
    s.MapOnly (l.foldl f s) := by
  induction l generalizing s with
  | nil => exact refl s
  | cons x xs ih => exact (hf s x).trans (ih _)

theorem pending {s t : State} (h : s.MapOnly t) : t.pending = s.pending := by rw [h]
theorem units {s t : State} (h : s.MapOnly t) : t.units = s.units := by rw [h]
theorem config {s t : State} (h : s.MapOnly t) : t.config = s.config := by rw [h]
theorem load {s t : State} (h : s.MapOnly t) : t.load = s.load := by rw [h]
theorem tick {s t : State} (h : s.MapOnly t) : t.tick = s.tick := by rw [h]
theorem resetAsserted {s t : State} (h : s.MapOnly t) : t.resetAsserted = s.resetAsserted := by rw [h]
theorem cmdPointer {s t : State} (h : s.MapOnly t) : t.cmdPointer = s.cmdPointer := by rw [h]
theorem job {s t : State} (h : s.MapOnly t) : t.job = s.job := by rw [h]
theorem turn {s t : State} (h : s.MapOnly t) : t.turn = s.turn := by rw [h]
theorem mem {s t : State} (h : s.MapOnly t) : t.mem = s.mem := by rw [h]
theorem blocks {s t : State} (h : s.MapOnly t) : t.blocks = s.blocks := by rw [h]

theorem unit {s t : State} (h : s.MapOnly t) (k : HostId) : t.unit k = s.unit k := by
  rw [State.unit, h.units, State.unit]

theorem frameCount {s t : State} (h : s.MapOnly t) : t.frameCount = s.frameCount := by
  rw [State.frameCount, h.config, State.frameCount]

theorem quotaOf {s t : State} (h : s.MapOnly t) (k : HostId) : t.quotaOf k = s.quotaOf k := by
  rw [State.quotaOf, h.config, State.quotaOf]

/-! ### The operations -/

variable (s : State)

theorem notify (h : HostId) (e : Event) : s.MapOnly (s.notify h e) := rfl
theorem complete (h : HostId) (tag : BitVec 16) (code : Byte) (r : Result) (p : Payload) :
    s.MapOnly (s.complete h tag code r p) := rfl
theorem finish (h : HostId) (d : Desc) (r : Result) : s.MapOnly (s.finish h d r) := rfl
theorem updFrame (f : Nat) (g : FrameRecord → FrameRecord) : s.MapOnly (s.updFrame f g) := rfl
theorem notifyAll (l : List HostId) (e : Event) : s.MapOnly (s.notifyAll l e) := foldl (fun s h => notify s h e) l s

theorem lowerOwned (o : Option HostId) : s.MapOnly (s.lowerOwned o) := by
  cases o <;> rfl

theorem allocService (h : HostId) (tag : BitVec 16) (count : Nat) (label : Option (BitVec 16)) (inh : Bool) :
    s.MapOnly (s.allocService h tag count label inh) := by
  refine trans ?_ (complete _ h tag codeAlloc .ok _)
  refine trans ?_ (foldl (fun s f => updFrame s f _) (s.freeList.take count) _)
  rfl

theorem serveEntries (l : List WaitEntry) : s.MapOnly (Machine.serveEntries l s) := by
  induction l generalizing s with
  | nil => rfl
  | cons e rest ih =>
    simp only [Machine.serveEntries]
    split
    · refine trans ?_ (ih _)
      refine trans ?_ (allocService _ e.host e.tag e.count e.label e.inheritFlag)
      rfl
    · rfl

theorem serveWaitList : s.MapOnly s.serveWaitList := serveEntries s s.waitList

theorem enterScrubbing (f : Nat) : s.MapOnly (s.enterScrubbing f) := by
  unfold State.enterScrubbing
  split
  · exact trans (lowerOwned s _) rfl
  · rfl

theorem moveRecord (id : Nat) (old new : RecallRecord) : s.MapOnly (s.moveRecord id old new) := rfl

theorem openRecord (id : Nat) (r : RecallRecord) : s.MapOnly (s.openRecord id r) := by
  unfold State.openRecord
  cases r.deadline with
  | none => rfl
  | some d => exact trans (by exact rfl) (notifyAll _ _ _)

theorem drainNotice (r : RecallRecord) (h : HostId) : s.MapOnly (s.drainNotice r h) := by
  unfold State.drainNotice
  split
  · rfl
  · split <;> rfl
  · rfl
  · split <;> rfl

theorem completeRecord (id : Nat) (r : RecallRecord) : s.MapOnly (s.completeRecord id r) := by
  unfold State.completeRecord
  simp only
  split
  · exact trans (trans (by exact rfl) (enterScrubbing _ r.frame)) rfl
  · rfl

theorem drainTarget (id : Nat) (r : RecallRecord) (h : HostId) (quiet : Bool) :
    s.MapOnly (s.drainTarget id r h quiet) := by
  unfold State.drainTarget
  simp only
  cases quiet with
  | true =>
    simp only [if_true]
    split
    · exact trans (by exact rfl) (completeRecord _ id _)
    · rfl
  | false =>
    simp only [Bool.false_eq_true, if_false]
    split
    · exact trans (trans (by exact rfl) (drainNotice _ r h)) (completeRecord _ id _)
    · exact trans (by exact rfl) (drainNotice _ r h)

theorem drainSwept (h : HostId) (f : Nat) (o : HostId) : s.MapOnly (s.drainSwept h f o) := by
  unfold State.drainSwept
  simp only
  split
  · exact trans (trans (by exact rfl) (enterScrubbing _ f)) rfl
  · rfl

theorem drainReport (h : HostId) (f : Nat) : s.MapOnly (s.drainReport h f) := by
  unfold State.drainReport
  split
  · rfl
  · split
    · split
      · split
        · rfl
        · exact drainTarget s _ _ h false
      · rfl
    · split
      · exact drainSwept s h f _
      · rfl

theorem upgradeRecord (id : Nat) : s.MapOnly (s.upgradeRecord id) := by
  unfold State.upgradeRecord
  split <;> rfl

theorem removeOffer (i : Nat) (o : Offer) : s.MapOnly (s.removeOffer i o) := rfl

theorem moveOwnership (h : HostId) (i : Nat) (o : Offer) : s.MapOnly (s.moveOwnership h i o) := by
  unfold State.moveOwnership
  simp only
  exact trans (trans (removeOffer s i o) (updFrame _ o.frame _)) (trans (lowerOwned _ _) (by exact rfl))

theorem expireOffer (i : Nat) (o : Offer) : s.MapOnly (s.expireOffer i o) := by
  unfold State.expireOffer
  simp only
  exact trans (trans (removeOffer s i o) (notify _ _ _)) (notify _ _ _)

theorem graceExpiry (id : Nat) : s.MapOnly (s.graceExpiry id) := by
  unfold State.graceExpiry
  split
  · split
    · split <;> rfl
    · rfl
  · rfl

theorem offerExpiry (i : Nat) : s.MapOnly (s.offerExpiry i) := by
  unfold State.offerExpiry
  split
  · split
    · exact expireOffer s i _
    · rfl
  · rfl

theorem withdrawForFree (f : Nat) : s.MapOnly (s.withdrawForFree f) := by
  unfold State.withdrawForFree
  split
  · split
    · exact trans (removeOffer s _ _) (notify _ _ _)
    · rfl
  · rfl

theorem closeOffersOf (h : HostId) : s.MapOnly (s.closeOffersOf h) := by
  refine foldl (fun s i => ?_) _ s
  split
  · exact trans (removeOffer s _ _) rfl
  · rfl

theorem upgradeRecordsOf (h : HostId) : s.MapOnly (s.upgradeRecordsOf h) := by
  refine foldl (fun s id => ?_) _ s
  split
  · split
    · exact upgradeRecord s id
    · rfl
  · rfl

theorem settleDeparting (h : HostId) (f : Nat) : s.MapOnly (s.settleDeparting h f) := by
  unfold State.settleDeparting
  split
  · split
    · split
      · rfl
      · exact drainTarget s _ _ h true
    · rfl
  · split
    · split
      · exact drainSwept s h f _
      · rfl
    · rfl

theorem endDeparture (h : HostId) (cause : Cause) : s.MapOnly (s.endDeparture h cause) :=
  trans (trans (by exact rfl) (notifyAll _ _ (.hostLeft h))) rfl

theorem passSweep (h : HostId) (cause : Cause) (position : Nat) : s.MapOnly (s.passSweep h cause position) := by
  unfold State.passSweep
  split
  · rfl
  · exact endDeparture s h cause

theorem removeGrant (f : Nat) (h : HostId) : s.MapOnly (s.removeGrant f h) := by
  unfold State.removeGrant
  simp only
  split <;> rfl

theorem inheritFrame (f : Nat) (h k : HostId) : s.MapOnly (s.inheritFrame f h k) := by
  unfold State.inheritFrame
  refine trans ?_ (notifyAll _ _ _)
  rfl

theorem beginForcedFreeing (f : Nat) (h : HostId) (cause : Cause) : s.MapOnly (s.beginForcedFreeing f h cause) := by
  unfold State.beginForcedFreeing
  simp only
  split
  · exact trans (enterScrubbing s f) (passSweep _ h cause f)
  · rfl

theorem withdrawn (f : Nat) (hd : Handle) (o : Offer) (k : HostId) :
    s.MapOnly ((s.removeOffer hd.slot o).notify k (.offerClosed hd f .withdrawn)) := rfl

theorem endScrub (f : Nat) (rest : List Nat) : s.MapOnly (s.endScrub f rest) := by
  unfold State.endScrub
  exact trans (by exact rfl) (serveWaitList _)

end State.MapOnly

/-- The start of a departure touches, beyond what the Map Controller does, the departing host's unit alone. -/
theorem State.startDeparture_mapOnly (s : State) (h : HostId) (cause : Cause) :
    (s.updUnit h (fun u => { u with windows := [], slots := [] })).MapOnly (s.startDeparture h cause) := by
  have key : (s.updUnit h (fun u => { u with windows := [], slots := [] })).MapOnly
      (((({ (s.updPort h (·.startLeaving)).updUnit h (fun u => { u with windows := [], slots := [] }) with
          departures := s.departures.set h (some ⟨cause, .draining⟩) } : State).removeWaiting h).closeOffersOf
        h).upgradeRecordsOf h) :=
    State.MapOnly.trans (State.MapOnly.trans (by exact rfl) (State.MapOnly.closeOffersOf _ h)) (State.MapOnly.upgradeRecordsOf _ h)
  unfold State.startDeparture
  simp only
  split
  · exact State.MapOnly.trans key (State.MapOnly.serveWaitList _)
  · exact key

/-- The end of a drain phase advances the counter of free orders besides. -/
theorem State.endDrainPhase_mapOnly (s : State) (h : HostId) (cause : Cause) :
    ({ s with fresh := s.fresh + 1 } : State).MapOnly (s.endDrainPhase h cause) := by
  unfold State.endDrainPhase
  exact State.MapOnly.trans (State.MapOnly.foldl (fun s f => State.MapOnly.settleDeparting s h f) _ _) rfl

/-- The expiries of a tick advance the counter of free orders besides. -/
theorem State.takeExpiries_mapOnly (s : State) : ({ s with fresh := s.fresh + 1 } : State).MapOnly s.takeExpiries := by
  unfold State.takeExpiries
  exact State.MapOnly.trans (State.MapOnly.foldl State.MapOnly.graceExpiry _ _)
    (State.MapOnly.foldl State.MapOnly.offerExpiry _ _)

end Sys2Proof.Machine
end

