-- ==== Sys2Proof/Laws/Due.lean ====
section
/-! SUPPORT. What falls due at a tick: expiries before their deadline do nothing, and what a TICK does. -/

namespace Sys2Proof.Machine

variable (s : State)

theorem deadlineReached_iff (counter deadline : BitVec 32) :
    deadlineReached counter deadline = true ↔ (counter - deadline).toNat < 2 ^ 31 := by simp [deadlineReached]

theorem State.offerDue_iff (i : Nat) :
    s.offerDue i = true ↔ ∃ o, (s.offerSlot i).offer = some o ∧ (s.tick - o.deadline).toNat < 2 ^ 31 := by
  unfold State.offerDue
  rcases (s.offerSlot i).offer with _ | o
  · simp
  · simp [deadlineReached]

theorem State.graceExpiry_of_not_due (id : Nat)
    (h : ∀ r dl, s.record id = some r → r.deadline = some dl → 2 ^ 31 ≤ (s.tick - dl).toNat) :
    s.graceExpiry id = s := by
  unfold State.graceExpiry
  split
  · next r hr =>
    split
    · next d hd =>
      rw [if_neg]
      rw [deadlineReached_iff]
      have := h r d hr hd
      omega
    · rfl
  · rfl

theorem State.offerExpiry_of_not_due (i : Nat)
    (h : ∀ o, (s.offerSlot i).offer = some o → 2 ^ 31 ≤ (s.tick - o.deadline).toNat) : s.offerExpiry i = s := by
  unfold State.offerExpiry
  split
  · next o ho =>
    rw [if_neg]
    rw [deadlineReached_iff]
    have := h o ho
    omega
  · rfl

/-- A grace expiry touches no offer. -/
theorem State.graceExpiry_offerSlot (id i : Nat) : (s.graceExpiry id).offerSlot i = s.offerSlot i := by
  unfold State.graceExpiry
  split
  · split
    · split <;> rfl
    · rfl
  · rfl

/-- A TICK with RESET_N deasserted: what is due is taken, then the counter moves on. -/
theorem exec_tick (h : s.resetAsserted = false) : exec .tick s = .next { s.takeDue with tick := s.tick + 1 } := by
  simp [exec, execTick, h]

end Sys2Proof.Machine
end

