-- ==== Sys2Proof/Laws/Pool.lean ====
section
/-! SUPPORT. What a write of a pool block and a noted error do, said once. -/

namespace Sys2Proof.Machine

variable (s : State)

/-! ### A pool block written -/

section
variable (b : Nat) (g : Nat → Byte)

@[simp] theorem State.writeBlock_pending : (s.writeBlock b g).pending = s.pending := rfl
@[simp] theorem State.writeBlock_resetAsserted : (s.writeBlock b g).resetAsserted = s.resetAsserted := rfl
@[simp] theorem State.writeBlock_config : (s.writeBlock b g).config = s.config := rfl
@[simp] theorem State.writeBlock_load : (s.writeBlock b g).load = s.load := rfl
@[simp] theorem State.writeBlock_tick : (s.writeBlock b g).tick = s.tick := rfl
@[simp] theorem State.writeBlock_port (k : HostId) : (s.writeBlock b g).port k = s.port k := rfl
@[simp] theorem State.writeBlock_unit (k : HostId) : (s.writeBlock b g).unit k = s.unit k := rfl
@[simp] theorem State.writeBlock_frames : (s.writeBlock b g).frames = s.frames := rfl
@[simp] theorem State.writeBlock_frame (f : Nat) : (s.writeBlock b g).frame f = s.frame f := rfl
@[simp] theorem State.writeBlock_record (id : Nat) : (s.writeBlock b g).record id = s.record id := rfl
@[simp] theorem State.writeBlock_offerSlot (i : Nat) : (s.writeBlock b g).offerSlot i = s.offerSlot i := rfl
@[simp] theorem State.writeBlock_freeList : (s.writeBlock b g).freeList = s.freeList := rfl
@[simp] theorem State.writeBlock_scrubQueue : (s.writeBlock b g).scrubQueue = s.scrubQueue := rfl
@[simp] theorem State.writeBlock_scrubPos : (s.writeBlock b g).scrubPos = s.scrubPos := rfl
@[simp] theorem State.writeBlock_resetCount : (s.writeBlock b g).resetCount = s.resetCount := rfl

theorem State.writeBlock_eq :
    s.writeBlock b g = { s with mem := (s.writeBlock b g).mem, blocks := (s.writeBlock b g).blocks } := rfl

theorem State.writeBlock_status (c : Nat) :
    Table.get BlockStatus.unknown (s.writeBlock b g).blocks c =
      if c = b then .known .none else Table.get BlockStatus.unknown s.blocks c := by
  simp [State.writeBlock]

/-- A run of bytes written to a table of bytes. -/
theorem Table.get_run (base n : Nat) (m : Table Byte) (a : Nat) :
    Table.get 0 ((List.range n).foldl (fun m i => Table.set 0 m (base + i) (g i)) m) a =
      if base ≤ a ∧ a < base + n then g (a - base) else Table.get 0 m a := by
  induction n with
  | zero => simp
  | succ n ih =>
    rw [List.range_succ, List.foldl_append]
    simp only [List.foldl_cons, List.foldl_nil, Table.get_set]
    rw [ih]
    by_cases h : a = base + n
    · subst h; simp
    · rw [if_neg h]
      by_cases h2 : base ≤ a ∧ a < base + n
      · rw [if_pos h2, if_pos (by omega)]
      · rw [if_neg h2, if_neg (by omega)]

/-- Exactly the block's 64 bytes are written. -/
theorem State.writeBlock_poolByte (a : Nat) :
    (s.writeBlock b g).poolByte a = if a / 64 = b then g (a - b * 64) else s.poolByte a := by
  unfold State.poolByte
  have hm : (s.writeBlock b g).mem =
      (List.range 64).foldl (fun m i => Table.set 0 m (b * 64 + i) (g i)) s.mem := rfl
  rw [State.writeBlock_status, hm, Table.get_run, State.writeBlock_resetCount]
  by_cases h : a / 64 = b
  · rw [if_pos h, if_pos h]
    simp only
    rw [if_pos (by omega)]
  · rw [if_neg h, if_neg h, if_neg (by omega)]

theorem State.writeBlock_blockError (c : Nat) :
    (s.writeBlock b g).blockError c = if c = b then .none else s.blockError c := by
  unfold State.blockError
  rw [State.writeBlock_status, State.writeBlock_resetCount]
  by_cases h : c = b
  · rw [if_pos h, if_pos h]
  · rw [if_neg h, if_neg h]

end

/-! ### Errors noted -/

theorem State.noteError_eq (b : Nat) (e : BlockError) :
    s.noteError b e = { s with blocks := (s.noteError b e).blocks } := by
  unfold State.noteError
  split
  · rfl
  · split <;> rfl

/-- R116: an error that was corrected changes nothing. -/
theorem State.noteError_correctable (b : Nat) {e : BlockError} (he : e ≠ .uncorrectable) : s.noteError b e = s := by
  unfold State.noteError
  rw [if_neg he]
  split <;> rfl

/-- What is known of the pool blocks after an error was noted: a block that was written becomes uncorrectable. -/
theorem State.noteError_status (b : Nat) (e : BlockError) (c : Nat) :
    Table.get BlockStatus.unknown (s.noteError b e).blocks c =
      if c = b ∧ e = .uncorrectable ∧ Table.get BlockStatus.unknown s.blocks b ≠ .unknown then .known .uncorrectable
      else Table.get BlockStatus.unknown s.blocks c := by
  unfold State.noteError
  split
  · next h => simp [h]
  · next old h =>
    by_cases he : e = .uncorrectable
    · simp [he, Table.get_set, h]
    · simp [he]

/-- An error noted changes no byte. -/
theorem State.noteError_poolByte (b : Nat) (e : BlockError) (a : Nat) :
    (s.noteError b e).poolByte a = s.poolByte a := by
  unfold State.noteError
  split
  · rfl
  · next old ho =>
    split
    · unfold State.poolByte
      simp only [Table.get_set]
      by_cases hb : a / Config.blockBytes = b
      · rw [if_pos hb, hb, ho]
      · rw [if_neg hb]
    · rfl

theorem State.noteErrors_eq (l : List (Nat × BlockError)) :
    s.noteErrors l = { s with blocks := (s.noteErrors l).blocks } := by
  unfold State.noteErrors
  induction l generalizing s with
  | nil => rfl
  | cons x l ih =>
    rw [List.foldl_cons]
    have h := State.noteError_eq s x.1 x.2
    have i := ih (s.noteError x.1 x.2)
    generalize List.foldl (fun s be => State.noteError s be.1 be.2) (s.noteError x.1 x.2) l = u at *
    generalize s.noteError x.1 x.2 = v at *
    cases u; cases v; cases s
    simp only [State.mk.injEq] at *
    simp_all

theorem State.noteErrors_poolByte (l : List (Nat × BlockError)) (a : Nat) :
    (s.noteErrors l).poolByte a = s.poolByte a := by
  unfold State.noteErrors
  induction l generalizing s with
  | nil => rfl
  | cons x l ih => rw [List.foldl_cons, ih, State.noteError_poolByte]

/-- R116: errors that were corrected change nothing. -/
theorem State.noteErrors_correctable (l : List (Nat × BlockError)) (h : ∀ be ∈ l, be.2 ≠ .uncorrectable) :
    s.noteErrors l = s := by
  unfold State.noteErrors
  induction l generalizing s with
  | nil => rfl
  | cons x l ih =>
    rw [List.foldl_cons, State.noteError_correctable s x.1 (h x (by simp))]
    exact ih s (fun be hb => h be (by simp [hb]))

/-- The ECC conditions after errors were noted: exactly the listed blocks that were written and hold an uncorrectable error
become uncorrectable. -/
theorem State.noteErrors_status (l : List (Nat × BlockError)) (c : Nat) :
    Table.get BlockStatus.unknown (s.noteErrors l).blocks c =
      if (c, BlockError.uncorrectable) ∈ l ∧ Table.get BlockStatus.unknown s.blocks c ≠ .unknown then
        .known .uncorrectable
      else Table.get BlockStatus.unknown s.blocks c := by
  unfold State.noteErrors
  induction l generalizing s with
  | nil => simp
  | cons x l ih =>
    obtain ⟨b, e⟩ := x
    rw [List.foldl_cons, ih, State.noteError_status]
    by_cases hc : c = b
    · subst hc
      by_cases he : e = .uncorrectable
      · by_cases hk : Table.get BlockStatus.unknown s.blocks c = .unknown
        · simp [hk]
        · simp [hk, he]
      · have : ¬ BlockError.uncorrectable = e := fun h => he h.symm
        simp [he, this]
    · simp [hc]

/-- As `State.noteErrors_status`, of the conditions read. -/
theorem State.noteErrors_blockError (l : List (Nat × BlockError)) (b : Nat) :
    (s.noteErrors l).blockError b =
      if (b, BlockError.uncorrectable) ∈ l ∧ Table.get BlockStatus.unknown s.blocks b ≠ .unknown then .uncorrectable
      else s.blockError b := by
  unfold State.blockError
  have count : (s.noteErrors l).resetCount = s.resetCount := by rw [State.noteErrors_eq]
  rw [State.noteErrors_status, count]
  by_cases c : (b, BlockError.uncorrectable) ∈ l ∧ Table.get BlockStatus.unknown s.blocks b ≠ .unknown
  · rw [if_pos c, if_pos c]
  · rw [if_neg c, if_neg c]

end Sys2Proof.Machine
end

