-- ==== Sys2Proof/Laws/Recalls.lean ====
section
/-! SUPPORT. What a change of a Recall Record and the drain checks it asks for do, said once, and the hosts a frame's
notices go to. -/

namespace Sys2Proof.Machine

variable (s : State)

theorem FrameRecord.mem_holders (r : FrameRecord) (skip : HostId → Bool) (k : HostId) :
    k ∈ r.holders skip ↔ skip k = false ∧ r.access.get k ≠ .none := by
  simp [FrameRecord.holders]

theorem FrameRecord.holders_nodup (r : FrameRecord) (skip : HostId → Bool) : (r.holders skip).Nodup :=
  List.Nodup.filter _ hosts_nodup

theorem RecallRecord.ownerReady_iff (r : RecallRecord) :
    r.ownerReady = true ↔
      r.purpose = .free ∧ r.targets.get r.requester = some .closing ∧ r.othersDrained r.requester = true := by
  simp [RecallRecord.ownerReady, and_assoc]

/-- A change of a record asks for the check of a target that newly is in CLOSING and is not a FREE's owner, and of a
FREE's owner that newly has every other target drained. -/
theorem RecallRecord.mem_checksAsked (old new : RecallRecord) (k : HostId) (f : Nat) :
    (k, f) ∈ RecallRecord.checksAsked old new ↔ f = new.frame ∧
      ((new.targets.get k = some .closing ∧ old.targets.get k ≠ some .closing ∧ new.isOwnerTarget k = false) ∨
       (k = new.requester ∧ new.ownerReady = true ∧ old.ownerReady = false)) := by
  unfold RecallRecord.checksAsked
  simp only [List.mem_append, List.mem_map, List.mem_filter, mem_hosts, true_and]
  constructor
  · rintro (⟨k', h1, h2⟩ | h)
    · simp only [Prod.mk.injEq] at h2
      obtain ⟨rfl, rfl⟩ := h2
      exact ⟨rfl, Or.inl (by simpa [and_assoc] using h1)⟩
    · split at h
      · next hc =>
        simp only [List.mem_singleton, Prod.mk.injEq] at h
        exact ⟨h.2, Or.inr ⟨h.1, by simpa using hc⟩⟩
      · simp at h
  · rintro ⟨rfl, ⟨h1, h2, h3⟩ | ⟨rfl, h2, h3⟩⟩
    · exact Or.inl ⟨k, by simp [h1, h2, h3], rfl⟩
    · exact Or.inr (by simp [h2, h3])

/-- Following changes the targets and the deadline alone. -/
theorem RecallRecord.follow_eq (r : RecallRecord) :
    r.follow = { r with targets := r.follow.targets, deadline := r.follow.deadline } := by
  unfold RecallRecord.follow
  simp only
  split <;> rfl

/-- R66: exactly the owner's target of a FREE record in which no other target is in NOTICE follows into CLOSING. -/
theorem RecallRecord.follow_targets (r : RecallRecord) (k : HostId) :
    r.follow.targets.get k =
      if r.purpose = .free ∧ r.requester = k ∧ r.targets.get k = some .notice ∧
          ∀ j, j ≠ k → r.targets.get j ≠ some .notice then some .closing
      else r.targets.get k := by
  have other : ∀ q, r.someOtherNotice q = false ↔ ∀ j, j ≠ q → r.targets.get j ≠ some .notice := by
    intro q
    simp [RecallRecord.someOtherNotice]
  unfold RecallRecord.follow
  simp only
  by_cases c : r.purpose = .free ∧ r.targets.get r.requester = some .notice ∧ r.someOtherNotice r.requester = false
  · rw [if_pos c]
    obtain ⟨c1, c2, c3⟩ := c
    simp only [RecallRecord.setPhase, PerHost.get_set]
    by_cases hk : k = r.requester
    · subst hk
      rw [if_pos rfl, if_pos ⟨c1, rfl, c2, (other _).mp c3⟩]
    · rw [if_neg hk, if_neg (fun x => hk x.2.1.symm)]
  · rw [if_neg c, if_neg]
    rintro ⟨c1, rfl, c2, c3⟩
    exact c ⟨c1, c2, (other _).mpr c3⟩

/-- R47, R51: the deadline stands while a target is in NOTICE. -/
theorem RecallRecord.follow_deadline (r : RecallRecord) :
    r.follow.deadline = if ∃ k, r.follow.targets.get k = some .notice then r.deadline else none := by
  have some_iff : ∀ q : RecallRecord, q.someNotice = true ↔ ∃ k, q.targets.get k = some .notice := by
    intro q
    simp [RecallRecord.someNotice]
  simp only [← some_iff]
  unfold RecallRecord.follow
  simp only
  split <;> (split <;> rename_i h <;> simp [RecallRecord.someNotice, RecallRecord.setPhase] at h ⊢; simp [h])

variable (id : Nat) (old new : RecallRecord)

@[simp] theorem State.moveRecord_port (k : HostId) : (s.moveRecord id old new).port k = s.port k := rfl
@[simp] theorem State.moveRecord_unit (k : HostId) : (s.moveRecord id old new).unit k = s.unit k := rfl
@[simp] theorem State.moveRecord_offerSlot (i : Nat) : (s.moveRecord id old new).offerSlot i = s.offerSlot i := rfl

@[simp] theorem State.moveRecord_record (j : Nat) :
    (s.moveRecord id old new).record j = if j = id then some new else s.record j :=
  State.setRecord_record s id (some new) j

@[simp] theorem State.moveRecord_drainChecks :
    (s.moveRecord id old new).drainChecks = s.drainChecks ++ RecallRecord.checksAsked old new := rfl

/-- The closing flags of the targets newly in CLOSING are set, and no other part of a Frame Record changes. -/
theorem State.moveRecord_frame (f : Nat) :
    (s.moveRecord id old new).frame f =
      if f = new.frame then
        { s.frame f with closing := PerHost.make (fun k => (s.frame f).closing.get k ||
            (decide (new.targets.get k = some .closing) && !decide (old.targets.get k = some .closing))) }
      else s.frame f := by
  show ((s.setRecord id (some new)).setFrame _ _).frame f = _
  simp only [State.setFrame_frame, State.setRecord_frame]
  split
  · next h => subst h; rfl
  · rfl

/-- A change of a record touches the Recall Table, its frame and the drain checks, and nothing else. -/
theorem State.moveRecord_eq :
    s.moveRecord id old new =
      { s with
        frames := (s.moveRecord id old new).frames, recalls := (s.moveRecord id old new).recalls
        drainChecks := (s.moveRecord id old new).drainChecks } := rfl

end Sys2Proof.Machine
end

