-- ==== Sys2Proof/Tests/Slice0.lean ====
section
/-! SUPPORT. The model's own tests: ill-formed commands refused, one or two small checks for each command with results
taken from the spec, and for each statement a state that meets its hypotheses. -/

namespace Sys2Proof.Tests

/- One theorem is checked at a time: many at once ask for more threads than the memory limit allows. -/
set_option Elab.async false

open Sys2Proof.Machine

/-! ### Small states -/

/-- A command descriptor of 32 bytes, given by its bytes other than 0. -/
def cmd (l : List (Nat × Byte)) : List Byte :=
  (List.range 32).map (fun i => (l.find? (fun e => e.1 == i)).elim 0 (·.2))

/-- The state a command answers with. -/
def after (c : Instr) (s : State) : State :=
  match exec c s with
  | .next t => t
  | _ => s

def portIn (st : PortState) : HostPort := { HostPort.initial with portState := st, linkUp := true }

/-- A configuration of 4,096 frames with a quota of 1,024 each, host 3 not enabled. -/
def conf : Configuration := ⟨4096, ⟨true, true, true, false⟩, ⟨1024, 1024, 1024, 1024⟩, 100, 2000⟩

/-- Hosts 0 to 2 are members, host 3 is attached; no frame is listed. -/
def base : State :=
  { State.reset with
    resetAsserted := false, load := .loaded, config := some conf, tick := 5000
    ports := ⟨portIn .member, portIn .member, portIn .member, portIn .attached⟩ }

/-- The state with one descriptor waiting in a host's Command Queue. -/
def ask (s : State) (h : HostId) (l : List (Nat × Byte)) : State :=
  s.setPort h { s.port h with queue := [cmd l] }

/-- A HELD frame: its owner and the four access levels. -/
def heldBy (o : HostId) (a0 a1 a2 a3 : Level) : FrameRecord :=
  { FrameRecord.initial with state := .held, owner := some o, access := ⟨a0, a1, a2, a3⟩ }

/-- Frame 7 owned by host 0 with RW, host 1 with READ; frame 9 free. -/
def owned7 : State :=
  { base with
    frames := [(7, heldBy 0 .rw .read .none .none), (9, { FrameRecord.initial with state := .free })]
    freeList := [9], owned := ⟨1, 0, 0, 0⟩ }

/-- A picked descriptor of the row is one the row's command takes. -/
theorem takes_of {s : State} {h : HostId} {raw : List Byte} {code : Byte} (hp : s.picked = some (h, raw))
    (hc : (Desc.ofBytes raw).code = code) : s.Takes h (Desc.ofBytes raw) code := ⟨raw, hp, rfl, hc⟩

/-- The descriptor of a list of bytes. -/
def desc (l : List (Nat × Byte)) : Desc := Desc.ofBytes (cmd l)

theorem takes_ask {s : State} {h : HostId} {l : List (Nat × Byte)} {code : Byte}
    (hp : (ask s h l).picked = some (h, cmd l)) (hc : (desc l).code = code) : (ask s h l).Takes h (desc l) code :=
  takes_of hp hc

/-- A control write of bytes, every mask flag set. -/
def wr (offset : Nat) (b : List Byte) : ControlWrite := ⟨offset, b.map (fun v => (v, true))⟩

/-! ### Ill-formed commands are refused, well-formed ones are not -/

theorem test_wf_staging_outside : (Instr.staging 0 (wr 0x220 [1, 0, 0, 0])).wellFormed = false := by decide
theorem test_wf_submit_outside : (Instr.submit 0 (wr 0x084 [1, 0, 0, 0])).wellFormed = false := by decide
theorem test_wf_join_masked :
    (Instr.join 0 ⟨0x060, [(1, false), (0, false), (0, false), (0, false)]⟩).wellFormed = false := by decide
theorem test_wf_event_pop_length : (Instr.eventPop 0 36).wellFormed = false := by decide
theorem test_wf_fault_pop_length : (Instr.faultPop 0 2).wellFormed = false := by decide
theorem test_wf_notice_lost_zero : (Instr.noticeLostClear 0 (wr 0x0C0 [0, 0, 0, 0])).wellFormed = false := by decide
theorem test_wf_int_enable_outside : (Instr.intEnable 0 (wr 0x0A4 [1, 0, 0, 0])).wellFormed = false := by decide
theorem test_wf_control_write_acts : (Instr.controlWrite 0 (wr 0x080 [1, 0, 0, 0])).wellFormed = false := by decide
theorem test_wf_request_words : (Instr.dataRequestArrival 0 ⟨0, 0, 5, 4, .read⟩).wellFormed = false := by decide
theorem test_wf_request_data :
    (Instr.dataRequestArrival 0 ⟨0, 0, 0, 0, .write [(1, true)]⟩).wellFormed = false := by decide
theorem test_wf_drain_check_frame : (Instr.drainCheck 0 16384).wellFormed = false := by decide
theorem test_wf_image_length : (Instr.imageReceived [0x3A]).wellFormed = false := by decide
theorem test_wf_legal_commands :
    (Instr.staging 0 (wr 0x21C [1, 0, 0, 0])).wellFormed = true ∧ (Instr.join 0 (wr 0x060 [1, 0, 0, 0])).wellFormed = true
      ∧ (Instr.eventPop 0 32).wellFormed = true ∧ (Instr.controlWrite 0 (wr 0x0E0 [1, 0, 0, 0])).wellFormed = true := by
  decide

/-! ### Operand forms -/

/-- R161: the check value of a CRC with generator 1021h and start FFFFh over the digits 1 to 9 is 29B1h. -/
theorem test_crc16_check_value :
    crc16 [0x31, 0x32, 0x33, 0x34, 0x35, 0x36, 0x37, 0x38, 0x39] = 0x29B1 := by decide +kernel

/-- Section 10.5: multi-byte fields are read least significant byte first. -/
theorem test_descriptor_fields :
    (desc [(0, 4), (2, 0x34), (3, 0x12), (4, 1), (5, 2)]).tag = 0x1234 ∧
      (desc [(4, 1), (5, 2), (14, 3), (15, 200)]).frame = 513 ∧ (desc [(14, 3), (15, 200)]).handle = ⟨3, 200⟩ ∧
      (desc [(21, 1)]).base = 256 := by decide

/-- R165: a deadline stays ahead across the counter's wrap. -/
theorem test_deadline_wraps :
    deadlineReached 0xFFFFFFFF (deadlineAfter 0xFFFFFFFF 3) = false ∧
      deadlineReached 2 (deadlineAfter 0xFFFFFFFF 3) = true ∧ ticksRemaining 0xFFFFFFFF 2 = 3 := by decide

theorem test_no_word_spells_a_command : decodeTableWord 32 1 = none := by decide

/-! ### Takings, after the worked examples of Chapters 1 to 5 and 11 -/

/-- Every port a member, with the given frames. -/
def pool (frames : Table FrameRecord) : State :=
  { base with ports := PerHost.all (portIn .member), frames := frames }

/-- Chapter 1's example after step 1: frames 0 to 2 free, host 0 waits for four frames under tag 10h. -/
def scrubbing3 : State :=
  { pool (((List.range 3).map (fun f => (f, { FrameRecord.initial with state := .free })))) with
    freeList := [0, 1, 2], scrubQueue := [3, 4], scrubPos := 1023, job := .scrub
    waitList := [⟨0, 0x10, 4, none, false⟩], waiting := ⟨4, 0, 0, 0⟩
    ports := ⟨{ portIn .member with reserved := 1 }, portIn .member, portIn .member, portIn .attached⟩ }

/-- Chapter 1's example, step 2: with another entry waiting, an ALLOC without WAIT is answered NO_FRAMES. -/
theorem test_alloc_no_frames :
    ((after .alloc (ask scrubbing3 1 [(0, 1), (2, 0x20), (7, 1)])).port 1).events =
      [.completion 0x20 codeAlloc .noFrames (.freeLength 3)] := by decide +kernel

/-- Chapter 1's example, step 3: with WAIT it joins the tail, and its entry stays reserved. -/
theorem test_alloc_waits :
    let t := after .alloc (ask scrubbing3 1 [(0, 1), (1, 1), (2, 0x21), (7, 2)])
    t.waitList = [⟨0, 0x10, 4, none, false⟩, ⟨1, 0x21, 2, none, false⟩] ∧ t.waiting = ⟨4, 2, 0, 0⟩ ∧
      (t.port 1).reserved = 1 ∧ (t.port 1).events = [] := by decide +kernel

/-- Chapter 1's example, step 4: the scrub end of frame 3 serves the head entry. -/
theorem test_scrub_end_serves :
    let t := after .scrubWritePerformed scrubbing3
    t.freeList = [] ∧ t.scrubQueue = [4] ∧ t.waitList = [] ∧ t.owned = ⟨4, 0, 0, 0⟩ ∧ t.waiting = ⟨0, 0, 0, 0⟩ ∧
      (t.port 0).events = [.completion 0x10 codeAlloc .ok (.frames [0, 1, 2, 3])] ∧
      (t.frame 3).state = .held ∧ (t.frame 3).access = ⟨.rw, .none, .none, .none⟩ := by decide +kernel

/-- Chapter 1's example, step 5 (here for host 0's entry): CANCELLED for the ALLOC, then OK for the cancel. -/
theorem test_cancel_alloc :
    let t := after .cancelAlloc (ask scrubbing3 0 [(0, 2), (2, 0x10)])
    t.waitList = [] ∧ t.waiting.get 0 = 0 ∧ (t.port 0).reserved = 0 ∧
      (t.port 0).events = [.completion 0x10 codeAlloc .cancelled .none, .completion 0x10 codeCancelAlloc .ok .none] := by
  decide +kernel

/-- R24: with another tag it completes NOT_FOUND. -/
theorem test_cancel_alloc_not_found :
    ((after .cancelAlloc (ask scrubbing3 0 [(0, 2), (2, 0x11)])).port 0).events =
      [.completion 0x11 codeCancelAlloc .notFound .none] := by decide +kernel

/-- R25: LABEL_PRESENT clear makes the label absent. -/
theorem test_set_label :
    ((after .setLabel (ask owned7 0 [(0, 0x0B), (1, 4), (4, 7), (12, 0xEF), (13, 0xBE)])).frame 7).label = some 0xBEEF ∧
      ((after .setLabel (ask owned7 1 [(0, 0x0B), (4, 7)])).port 1).events =
        [.completion 0 codeSetLabel .notOwner .none] := by decide +kernel

theorem test_set_inherit :
    ((after .setInherit (ask owned7 0 [(0, 0x0C), (1, 2), (4, 7)])).frame 7).inheritFlag = true := by decide +kernel

theorem test_query_frame :
    ((after .queryFrame (ask owned7 2 [(0, 0x11), (4, 9)])).port 2).events =
      [.completion 0 codeQueryFrame .ok (.snapshot 9 { FrameRecord.initial with state := .free })] := by decide +kernel

/-- Chapter 2's example: pointer 2, host 2 with 62 records and one reservation. -/
def pressed : State :=
  { pool [(7, heldBy 0 .rw .read .none .none), (9, heldBy 0 .rw .none .none .none), (12, heldBy 2 .none .none .rw .none)] with
    cmdPointer := 2
    ports := ⟨portIn .member, portIn .member,
      { portIn .member with events := List.replicate 62 (.hostJoined 3), reserved := 1,
                            queue := [cmd [(0, 4), (2, 0x31), (4, 12), (6, 1), (8, 2)]] }, portIn .attached⟩ }

/-- Chapter 2's example, step 1. -/
theorem test_grant_taken :
    let t := after .grant pressed
    t.cmdPointer = 3 ∧ (t.port 2).events.length = 63 ∧ (t.port 2).reserved = 1 ∧
      (t.port 1).events = [.granted 12 2 .rw none] ∧ (t.frame 12).access = ⟨.none, .rw, .rw, .none⟩ := by decide +kernel

/-- Chapter 2's example, step 3: the notice to the full queue is dropped, and the grant takes effect. -/
theorem test_grant_notice_lost :
    let s := { pressed with cmdPointer := 1 }.setPort 2 { pressed.port 2 with events := List.replicate 63 (.hostJoined 3) }
    let t := after .grant (ask s 0 [(0, 4), (2, 0x41), (4, 9), (6, 2), (8, 1)])
    (t.port 2).noticeLost = true ∧ (t.port 2).events.length = 63 ∧ (t.frame 9).access.get 2 = .read ∧
      (t.port 0).events = [.completion 0x41 codeGrant .ok .none] := by decide +kernel

/-- The two Recall Records that section 11.9's example finds in use. -/
def twoRecords : Table (Option RecallRecord) :=
  [(0, some ⟨300, .revoke, 2, 1, true, ⟨none, none, none, some .closing⟩, none⟩),
   (1, some ⟨301, .revoke, 2, 2, true, ⟨none, none, none, some .closing⟩, none⟩)]

/-- A four-byte write in an ORT. -/
def ortWrite (tag : Fin 32) (f : Nat) (inPool : Bool) : OrtEntry :=
  ⟨tag, .write [(1, true), (2, true), (3, true), (4, true)], 0x40, f, 0x40, 4, inPool⟩

/-- Section 11.9's example before its first event. -/
def lent220 : State :=
  { pool [(220, heldBy 1 .none .rw .none .rw)] with
    recalls := twoRecords, owned := ⟨0, 1, 0, 0⟩
    units := ⟨.initial, .initial, .initial, ⟨[], [], [ortWrite 2 220 false, ortWrite 6 220 false]⟩⟩ }

/-- Section 11.9's record 2. -/
def record220 (p : Phase) (deadline : Option (BitVec 32)) : RecallRecord :=
  ⟨220, .revoke, 1, 0x90, false, ⟨none, none, none, some p⟩, deadline⟩

/-- Section 11.9's example, tick 5,000. -/
theorem test_revoke_graceful :
    let t := after .revoke (ask lent220 1 [(0, 5), (2, 0x90), (4, 220), (6, 3), (10, 20)])
    t.record 2 = some (record220 .notice (some 5020)) ∧ (t.frame 220).recallSet = [2] ∧
      (t.frame 220).closing = PerHost.all false ∧ (t.port 3).events = [.recallNotice 220 2 20] ∧
      (t.port 1).reserved = 1 ∧ (t.port 1).events = [] ∧ t.drainChecks = [] := by decide +kernel

/-- Section 11.9's example while the record stands: its target's phase, its deadline, whether closing is set, host 3's
entries. -/
def recalled220 (p : Phase) (deadline : Option (BitVec 32)) (closing : Bool) (ort : List OrtEntry) (now : BitVec 32) : State :=
  { lent220 with
    tick := now
    frames := [(220, { heldBy 1 .none .rw .none .rw with closing := ⟨false, false, false, closing⟩, recallSet := [2] })]
    recalls := twoRecords ++ [(2, some (record220 p deadline))]
    ports := ⟨portIn .member, { portIn .member with reserved := 1 }, portIn .member, portIn .member⟩
    units := ⟨.initial, .initial, .initial, ⟨[], [], ort⟩⟩
    drainChecks := if closing then [(3, 220)] else [] }

/-- Section 11.9's example, tick 5,020: not at 5,019. -/
theorem test_grace_expiry :
    let t := after (.graceExpiry 2) (recalled220 .notice (some 5020) false [ortWrite 9 220 false] 5020)
    t.record 2 = some (record220 .closing none) ∧ (t.frame 220).closing = ⟨false, false, false, true⟩ ∧
      t.drainChecks = [(3, 220)] := by decide +kernel

theorem test_grace_expiry_not_yet :
    let s := recalled220 .notice (some 5020) false [ortWrite 9 220 false] 5019
    exec (.graceExpiry 2) s = .next s := by rfl

/-- Section 11.9's example, tick 5,021: the RELEASE is LATE. -/
theorem test_release_late :
    ((after .release (ask (recalled220 .closing none true [ortWrite 9 220 false] 5021) 3 [(0, 6), (4, 220)])).port 3).events =
      [.completion 0 codeRelease .late .none] := by decide +kernel

/-- Section 11.9's last paragraph: a RELEASE in NOTICE closes the access and completes OK. -/
theorem test_release_in_notice :
    let t := after .release (ask (recalled220 .notice (some 5020) false [ortWrite 9 220 false] 5019) 3 [(0, 6), (4, 220)])
    t.record 2 = some (record220 .closing none) ∧ (t.frame 220).closing.get 3 = true ∧
      (t.port 3).events = [.completion 0 codeRelease .ok .none] := by decide +kernel

/-- Section 11.9's example: the drain check finds tag 9. -/
theorem test_drain_check_finds_entry :
    (after (.drainCheck 3 220) (recalled220 .closing none true [ortWrite 9 220 false] 5020)).record 2 =
      some (record220 .closing none) := by decide +kernel

/-- R48 to R50: a drain check that finds no entry drains the target and completes the record. -/
theorem test_drain_check_completes :
    let t := after (.drainCheck 3 220) (recalled220 .closing none true [] 5020)
    t.record 2 = none ∧ (t.frame 220).access = ⟨.none, .rw, .none, .none⟩ ∧ (t.frame 220).recallSet = [] ∧
      (t.port 3).events = [.revoked 220 .revoke] ∧ (t.port 1).reserved = 0 ∧
      (t.port 1).events = [.completion 0x90 codeRevoke .ok .none] := by decide +kernel

/-- Section 11.9's example, tick 5,022: tag 9 is written, retires, and the record completes. -/
theorem test_write_performed :
    let s := { recalled220 .closing none true [ortWrite 9 220 true] 5022 with
      job := .port 3, blocks := [(220 * 1024 + 1, .known .none)] }
    let t := after (.writePerformed .none .none) s
    t.job = .idle ∧ (t.unit 3).ort = [] ∧ (t.port 3).sent = [.creditReturn 9] ∧ t.record 2 = none ∧
      (t.frame 220).closing = PerHost.all false ∧ t.poolByte (220 * 65536 + 0x42) = 3 := by decide +kernel

/-- Chapter 3's example, step 1. -/
def shared300 : State :=
  { pool [(300, { heldBy 0 .rw .read .rw .none with label := some 0x55, generation := 6 })] with
    tick := 1000, owned := ⟨1, 0, 0, 0⟩ }

theorem test_free_graceful :
    let t := after .free (ask shared300 0 [(0, 3), (2, 0x70), (4, 0x2C), (5, 1), (10, 50)])
    t.record 0 = some ⟨300, .free, 0, 0x70, false, ⟨some .notice, some .notice, some .notice, none⟩, some 1050⟩ ∧
      (t.frame 300).state = .freeing ∧ (t.port 1).events = [.recallNotice 300 0 50] ∧
      (t.port 2).events = [.recallNotice 300 0 50] ∧ (t.port 0).events = [] ∧ (t.port 0).reserved = 1 := by decide +kernel

/-- Chapter 3's example, step 11: the owner drains last; the frame enters SCRUBBING with generation 7. -/
theorem test_owner_drain_ends_free :
    let s := { shared300 with
      frames := [(300, { heldBy 0 .rw .none .none .none with
        state := .freeing, closing := ⟨true, false, false, false⟩, label := some 0x55, generation := 6, recallSet := [0] })]
      recalls := [(0, some ⟨300, .free, 0, 0x70, false, ⟨some .closing, some .drained, some .drained, none⟩, none⟩)]
      ports := (shared300.ports).set 0 { portIn .member with reserved := 1 }
      drainChecks := [(0, 300)] }
    let t := after (.drainCheck 0 300) s
    t.frame 300 = { FrameRecord.initial with generation := 7 } ∧ t.scrubQueue = [300] ∧ t.owned.get 0 = 0 ∧
      t.record 0 = none ∧ (t.port 0).events = [.completion 0x70 codeFree .ok .none] := by decide +kernel

/-- Section 11.10's example before the OFFER. -/
def handed1500 : State :=
  { pool [(1500, { heldBy 0 .rw .read .none .none with label := some 7 })] with
    tick := 12000, owned := ⟨30, 0, 10, 0⟩
    offers := [(0, ⟨0, some ⟨1501, 0, 1, .read, 13000⟩⟩), (1, ⟨6, none⟩)] }

/-- Section 11.10's example, tick 12,000. -/
theorem test_offer_opened :
    let t := after .offer (ask handed1500 0 [(0, 7), (4, 0xDC), (5, 5), (6, 2)])
    t.offerSlot 1 = ⟨6, some ⟨1500, 0, 2, .none, 14000⟩⟩ ∧ (t.frame 1500).offer = some ⟨1, 6⟩ ∧
      (t.port 0).events = [.completion 0 codeOffer .ok (.handle ⟨1, 6⟩)] ∧
      (t.port 2).events = [.offerReceived ⟨1, 6⟩ 1500 0 .none (some 7) 2000] := by decide +kernel

/-- Section 11.10's example with the offer open, and its residual level. -/
def offered1500 (residual : Level) (now : BitVec 32) : State :=
  { handed1500 with
    tick := now
    frames := [(1500, { heldBy 0 .rw .read .none .none with label := some 7, offer := some ⟨1, 6⟩ })]
    offers := [(1, ⟨6, some ⟨1500, 0, 2, residual, 14000⟩⟩)] }

/-- Section 11.10's example, tick 12,040. -/
theorem test_accept_residual_none :
    let t := after .accept (ask (offered1500 .none 12040) 2 [(0, 8), (2, 0x33), (14, 1), (15, 6)])
    t.offerSlot 1 = ⟨7, none⟩ ∧ (t.frame 1500).owner = some 2 ∧ (t.frame 1500).access = ⟨.rw, .read, .rw, .none⟩ ∧
      (t.frame 1500).closing = ⟨true, false, false, false⟩ ∧ t.owned = ⟨29, 0, 11, 0⟩ ∧
      t.record 0 = some ⟨1500, .handover, 2, 0x33, true, ⟨some .closing, none, none, none⟩, none⟩ ∧
      (t.port 0).events = [.offerClosed ⟨1, 6⟩ 1500 .accepted] ∧ (t.port 1).events = [.ownerChanged 1500 2 .offer] ∧
      (t.port 2).events = [] ∧ (t.port 2).reserved = 1 := by decide +kernel

/-- Chapter 4's example, tick 1,100: with residual READ the giver's level falls at once. -/
theorem test_accept_residual_read :
    let t := after .accept (ask (offered1500 .read 12040) 2 [(0, 8), (14, 1), (15, 6)])
    (t.frame 1500).access = ⟨.read, .read, .rw, .none⟩ ∧ (t.port 2).events = [.completion 0 codeAccept .ok .none] := by
  decide +kernel

theorem test_decline :
    let t := after .decline (ask (offered1500 .none 12040) 2 [(0, 9), (14, 1), (15, 6)])
    t.offerSlot 1 = ⟨7, none⟩ ∧ (t.frame 1500).offer = none ∧ (t.port 0).events = [.offerClosed ⟨1, 6⟩ 1500 .declined] := by
  decide +kernel

/-- Chapter 4's example, tick 1,150: an old serial finds no offer. -/
theorem test_decline_gone :
    ((after .decline (ask (offered1500 .none 12040) 2 [(0, 9), (14, 1), (15, 5)])).port 2).events =
      [.completion 0 codeDecline .gone .none] := by decide +kernel

theorem test_withdraw :
    let t := after .withdraw (ask (offered1500 .none 12040) 0 [(0, 10), (14, 1), (15, 6)])
    t.offerSlot 1 = ⟨7, none⟩ ∧ (t.port 2).events = [.offerClosed ⟨1, 6⟩ 1500 .withdrawn] := by decide +kernel

/-- Chapter 4's example, tick 1,300, and not before the deadline. -/
theorem test_offer_expiry :
    let t := after (.offerExpiry 1) (offered1500 .none 14000)
    t.offerSlot 1 = ⟨7, none⟩ ∧ (t.port 0).events = [.offerClosed ⟨1, 6⟩ 1500 .expired] ∧
      (t.port 2).events = [.offerClosed ⟨1, 6⟩ 1500 .expired] := by decide +kernel

/-- Section 5.7's tables. -/
def view57 : State :=
  { pool [(62, { heldBy 3 .none .none .none .rw with generation := 3 }), (102, heldBy 1 .none .rw .none .none),
      (104, heldBy 0 .rw .read .none .none), (105, { FrameRecord.initial with state := .free }),
      (310, { heldBy 2 .none .read .rw .none with generation := 5 })] with
    units := ⟨.initial,
      ⟨[(0, some ⟨0, 4, .direct 100, true⟩), (2, some ⟨0x40000000, 3, .mapped 8, false⟩)],
       [(8, some ⟨310, 5⟩), (10, some ⟨62, 2⟩)], []⟩, .initial, .initial⟩ }

/-- Section 5.7's table of requests. -/
theorem test_access_checks :
    view57.accessCheck 1 (.write []) 0x21040 = .pass 102 0x1040 ∧
    view57.accessCheck 1 (.write []) 0x40000 = .fault .noRights (some 0) (some 104) ∧
    view57.accessCheck 1 .read 0x40100 = .pass 104 0x100 ∧
    view57.accessCheck 1 .read 0x50000 = .fault .frameState (some 0) (some 105) ∧
    view57.accessCheck 1 .read 0x100000 = .fault .noWindow none none ∧
    view57.accessCheck 1 .read 0x40000200 = .pass 310 0x200 ∧
    view57.accessCheck 1 (.write []) 0x40000200 = .fault .readOnlyWindow (some 2) none ∧
    view57.accessCheck 1 .read 0x40010000 = .fault .emptySlot (some 2) none ∧
    view57.accessCheck 1 .read 0x40020000 = .fault .staleSlot (some 2) (some 62) := by decide +kernel

/-- Section 5.7's three SET_WINDOW commands, and one that passes. -/
theorem test_set_window :
    let reply := fun (l : List (Nat × Byte)) => ((after .setWindow (ask view57 1 ((0, 0x0D) :: l))).port 1).events
    reply [(16, 3), (17, 2), (22, 8)] = [.completion 0 codeSetWindow .overlap .none] ∧
    reply [(16, 3), (17, 2), (22, 3)] = [.completion 0 codeSetWindow .badArgument .none] ∧
    reply [(16, 0)] = [.completion 0 codeSetWindow .busy .none] ∧
    reply [(16, 3), (17, 2), (22, 0x10)] = [.completion 0 codeSetWindow .ok .none] := by decide +kernel

/-- R89: the window that passes is stored with the field of its mode. -/
theorem test_set_window_stored :
    ((after .setWindow (ask view57 1 [(0, 0x0D), (1, 8), (16, 3), (17, 2), (18, 1), (22, 0x10), (28, 40)])).unit 1).window 3 =
      some ⟨0x100000, 2, .mapped 40, true⟩ := by decide +kernel

theorem test_clear_window :
    ((after .clearWindow (ask view57 1 [(0, 0x0E), (16, 2)])).unit 1).windows = [(0, some ⟨0, 4, .direct 100, true⟩)] := by
  decide +kernel

/-- Section 5.7's last sentence: NO_ACCESS for frame 62. A frame within access is mapped at its generation. -/
theorem test_map_slot :
    ((after .mapSlot (ask view57 1 [(0, 0x0F), (4, 62), (30, 10)])).port 1).events =
      [.completion 0 codeMapSlot .noAccess .none] ∧
    ((after .mapSlot (ask view57 1 [(0, 0x0F), (4, 0x36), (5, 1), (30, 0xFF), (31, 0x0F)])).unit 1).slot 4095 =
      some ⟨310, 5⟩ := by decide +kernel

theorem test_unmap_slot :
    ((after .unmapSlot (ask view57 1 [(0, 0x10), (30, 10)])).unit 1).slots = [(8, some ⟨310, 5⟩)] := by decide +kernel

theorem test_query_host :
    ((after .queryHost (ask owned7 0 [(0, 0x12)])).port 0).events =
      [.completion 0 codeQueryHost .ok (.figures ⟨1, 1024, 0, ⟨true, true, true, false⟩, 1, 0, .loaded, 4096, 100, 2000⟩)] := by
  decide +kernel

/-- R34: the completion of an unknown code carries the code as written. -/
theorem test_bad_command :
    ((after .badCommand (ask base 0 [(0, 0x14), (2, 9)])).port 0).events = [.completion 9 0x14 .badCommand .none] := by
  decide +kernel

/-! ### Control accesses -/

/-- R28: the bytes with their mask flag set change, the others stay. -/
theorem test_staging :
    let t := after (.staging 3 ⟨0x21C, [(1, true), (2, false), (3, true), (4, true)]⟩) base
    (t.port 3).staging = cmd [(28, 1), (30, 3), (31, 4)] := by decide +kernel

/-- R29: accepted into a queue of 15, refused by one of 16. -/
theorem test_submit :
    let s := fun n => base.setPort 0 { base.port 0 with queue := List.replicate n (cmd []) }
    ((after (.submit 0 (wr 0x080 [0, 0, 0, 0])) (s 15)).port 0).queue.length = 16 ∧
      ((after (.submit 0 (wr 0x080 [0, 0, 0, 0])) (s 16)).port 0).submitStatus = .queueFull := by decide +kernel

/-- Chapter 9's example: NOT_READY while LOADING; HOST_DISABLED by the configuration; then JOINED. -/
theorem test_join :
    let down := { base with load := .loading, config := none, ports := PerHost.all (portIn .attached) }
    let up := { base with ports := PerHost.all (portIn .attached) }
    ((after (.join 0 (wr 0x060 [1, 0, 0, 0])) down).port 0).joinStatus = .notReady ∧
      ((after (.join 3 (wr 0x060 [1, 0, 0, 0])) up).port 3).joinStatus = .hostDisabled ∧
      ((after (.join 0 (wr 0x060 [1, 0, 0, 0])) up).port 0).portState = .member := by decide +kernel

/-- R133: a pop returns the kind of the head record and removes it. -/
theorem test_event_pop :
    let s := base.setPort 0 { base.port 0 with events := [.hostJoined 1, .hostLeft 2] }
    let t := after (.eventPop 0 4) s
    (t.port 0).events = [.hostLeft 2] ∧ (t.port 0).sent = [.controlRead .ok [10, 0, 0, 0]] := by decide +kernel

/-- Fault records for Chapter 7's suppression example. -/
def faultA : FaultRecord := ⟨.noRights, false, 0x40000, 4, some 0, some 104, 0⟩

/-- Chapter 7's suppression example, steps 2 and 4. -/
theorem test_fault_log_suppresses :
    let p := { portIn .member with faults := List.replicate 8 faultA, faultIe := true }
    (p.reportFault faultA).faults = List.replicate 7 faultA ++ [{ faultA with suppressed := 1 }] ∧
      (p.reportFault faultA).hirq = true := by decide +kernel

theorem test_fault_pop :
    let s := base.setPort 0 { base.port 0 with faults := [faultA, { faultA with kind := .recalled }] }
    let t := after (.faultPop 0 8) s
    (t.port 0).faults = [{ faultA with kind := .recalled }] ∧
      (t.port 0).sent = [.controlRead .ok [6, 0, 0, 0, 0, 0, 0, 0]] := by decide +kernel

/-- Chapter 7's example, step 4, with the queue empty: the line falls with the flag. -/
theorem test_notice_lost_clear :
    let s := base.setPort 0 { base.port 0 with noticeLost := true, eventIe := true, hirq := true }
    let t := after (.noticeLostClear 0 (wr 0x0C0 [1, 0, 0, 0])) s
    (t.port 0).noticeLost = false ∧ (t.port 0).hirq = false := by decide +kernel

theorem test_int_enable :
    let s := base.setPort 0 { base.port 0 with faults := [faultA] }
    ((after (.intEnable 0 (wr 0x0A0 [2, 0, 0, 0])) s).port 0).hirq = true ∧
      ((after (.intEnable 0 (wr 0x0A0 [1, 0, 0, 0])) s).port 0).hirq = false := by decide +kernel

theorem test_control_write_idle : exec (.controlWrite 0 (wr 0x0E0 [1, 0, 0, 0])) base = .next base := rfl

/-- Section 10.6: a GRANTED record with a label, bytes 0 to 7. -/
theorem test_event_record_bytes :
    (Event.granted 0x0102 2 .rw (some 0xBEEF)).bytes.take 9 = [2, 1, 2, 1, 2, 2, 0xEF, 0xBE, 0] := by decide +kernel

/-- Section 10.2: IDENT and STATUS as they read. -/
theorem test_status_read :
    owned7.controlRead 3 0 4 = .controlRead .ok [0x16, 0x04, 3, 0] ∧
      owned7.controlRead 3 0x20 8 = .controlRead .ok [1, 1, 0, 0, 0, 0, 0, 0] ∧
      owned7.controlRead 3 0x24 8 = .controlRead .ok [0, 0, 0, 0, 0, 0, 0, 0] ∧
      owned7.controlRead 3 0x3C 8 = .controlRead .accessFault (List.replicate 8 0xFF) := by decide +kernel

/-! ### The access path -/

/-- Section 5.7, first row: the write is admitted. Section 5.7, fourth row: the read is answered with FFh. -/
theorem test_data_request :
    ((after (.dataRequestArrival 1 ⟨5, 0x420, 16, 16, .write [(1, true), (2, true), (3, true), (4, true)]⟩) view57).unit 1).ort =
      [⟨5, .write [(1, true), (2, true), (3, true), (4, true)], 0x21040, 102, 0x1040, 4, false⟩] ∧
    ((after (.dataRequestArrival 1 ⟨5, 0xA00, 0, 0, .read⟩) view57).port 1).sent =
      [.readCompletion 5 .accessFault [0xFF, 0xFF, 0xFF, 0xFF]] := by decide +kernel

/-- Section 6.9's state before grant 1. -/
def arbitrating (pointer : HostId) (turn : Nat) : State :=
  { pool [] with
    scrubQueue := [2000], scrubPos := 611, portPointer := pointer, turn := turn
    units := ⟨⟨[], [], [ortWrite 1 50 false]⟩, .initial, ⟨[], [], [ortWrite 2 60 false]⟩, .initial⟩ }

/-- Section 6.9's grants 2 and 3. -/
theorem test_pool_grant :
    let t := after .poolGrant (arbitrating 3 15)
    t.job = .port 0 ∧ t.portPointer = 1 ∧ t.turn = 16 ∧ (t.unit 0).ort = [ortWrite 1 50 true] ∧
      (after .poolGrant (arbitrating 1 16)).job = .scrub ∧ (after .poolGrant (arbitrating 1 16)).turn = 0 := by
  decide +kernel

/-- A pool block of written contents, 5 at its first byte. -/
def known (e : BlockError) : State :=
  { pool [(900, heldBy 0 .rw .none .none .rw)] with
    job := .port 3, mem := [(900 * 65536 + 0x2040, 5)], blocks := [(900 * 1024 + 129, .known e)]
    units := ⟨.initial, .initial, .initial, ⟨[], [], [⟨17, .read, 0x2040, 900, 0x2040, 8, true⟩]⟩⟩ }

/-- R116: the bytes of the frame; section 6.10, step 7: an uncorrectable error. -/
theorem test_read_performed :
    ((after (.readPerformed .none .none) (known .single)).port 3).sent =
      [.readCompletion 17 .ok [5, 0, 0, 0, 0, 0, 0, 0]] ∧
    ((after (.readPerformed .none .none) (known .uncorrectable)).port 3).sent =
      [.readCompletion 17 .dataError (List.replicate 8 0xFF)] := by decide +kernel

theorem test_read_damage :
    let t := after (.readPerformed .uncorrectable .none) (known .none)
    (t.frame 900).damaged = true ∧ (t.port 3).faults = [⟨.poolData, false, 0x2040, 8, none, some 900, 0⟩] := by
  decide +kernel

/-! ### Departures, after section 11.11 -/

/-- Section 11.11's state with host 3 in a phase of its departure. -/
def leaving3 (phase : DeparturePhase) (closing2 : Bool) : State :=
  { pool [(600, { heldBy 3 .rw .rw .none .rw with inheritFlag := true }),
      (601, { heldBy 3 .none .none .read .rw with closing := ⟨false, false, closing2, false⟩ }),
      (700, heldBy 2 .none .none .rw .read)] with
    ports := ⟨portIn .member, portIn .member, portIn .member, portIn .leaving⟩
    owned := ⟨1024, 40, 12, 2⟩
    units := ⟨.initial, .initial, ⟨[], [], [⟨14, .read, 0, 601, 0, 4, true⟩]⟩, .initial⟩
    departures := ⟨none, none, none, some ⟨.leave 0x77, phase⟩⟩
    drainChecks := if closing2 then [(2, 601)] else [] }

/-- Section 11.11, step 1. -/
theorem test_leave :
    let s := { leaving3 .draining false with
      departures := PerHost.all none
      ports := (PerHost.all (portIn .member)).set 3 { portIn .member with events := [.hostLeft 2], reserved := 1, eventIe := true }
      waitList := [⟨3, 1, 2, none, false⟩], waiting := ⟨0, 0, 0, 2⟩ }
    let t := after .leave (ask s 3 [(0, 0x13), (2, 0x77)])
    t.port 3 = portIn .leaving ∧ t.departures.get 3 = some ⟨.leave 0x77, .draining⟩ ∧ t.waitList = [] ∧
      t.waiting = ⟨0, 0, 0, 0⟩ := by decide +kernel

/-- Section 11.11, step 2. -/
theorem test_drain_phase_end :
    (after (.drainPhaseEnd 3) (leaving3 .draining false)).departures.get 3 = some ⟨.leave 0x77, .sweeping 0 false⟩ := by
  decide +kernel

/-- Section 11.11, step 5. -/
theorem test_sweep_inherits :
    let t := after (.sweepStep 3) (leaving3 (.sweeping 600 false) false)
    (t.frame 600).owner = some 1 ∧ (t.frame 600).access = ⟨.rw, .rw, .none, .none⟩ ∧ t.owned = ⟨1024, 41, 12, 1⟩ ∧
      (t.port 1).events = [.ownershipReceived 600 3 none] ∧ (t.port 0).events = [.ownerChanged 600 1 .inherit] ∧
      t.departures.get 3 = some ⟨.leave 0x77, .sweeping 601 false⟩ := by decide +kernel

/-- Section 11.11, step 6. -/
theorem test_sweep_frees :
    let t := after (.sweepStep 3) (leaving3 (.sweeping 601 false) false)
    (t.frame 601).closing = ⟨false, false, true, false⟩ ∧ t.drainChecks = [(2, 601)] ∧
      t.departures.get 3 = some ⟨.leave 0x77, .sweeping 601 true⟩ := by decide +kernel

/-- Section 11.11, step 8: the drain of the last access, at the retirement of tag 14. -/
theorem test_forced_freeing_ends :
    let s := leaving3 (.sweeping 601 true) true
    let t := s.retire 2 ⟨14, .read, 0, 601, 0, 4, true⟩ (.readCompletion 14 .ok [0, 0, 0, 0])
    t.frame 601 = { FrameRecord.initial with generation := 1 } ∧ t.scrubQueue = [601] ∧ t.owned.get 3 = 1 ∧
      (t.port 2).events = [.revoked 601 .depart] := by decide +kernel

/-- R59: host 0 has access NONE on frame 601, whose owner is LEAVING. -/
theorem test_release_owner_leaving :
    ((after .release (ask (leaving3 .draining false) 0 [(0, 6), (4, 0x59), (5, 2)])).port 0).events =
      [.completion 0 codeRelease .noAccess .none] := by decide +kernel

/-- Section 11.11, step 10: the last frame is passed and the departure ends. -/
theorem test_departure_ends :
    let s := leaving3 (.sweeping 4095 false) false
    let t := after (.sweepStep 3) (s.setPort 3 { s.port 3 with eventIe := true })
    t.departures.get 3 = none ∧ (t.port 0).events = [.hostLeft 3] ∧ (t.port 3).portState = .attached ∧
      (t.port 3).events = [.completion 0x77 codeLeave .ok .none] ∧ (t.port 3).hirq = true := by decide +kernel

/-- Chapter 8's example, step 1: the offer of the departing giver closes, its record is upgraded. -/
theorem test_link_down_member :
    let s := { pool [(11, { heldBy 2 .none .rw .rw .none with offer := some ⟨1, 4⟩ }),
        (12, { heldBy 2 .rw .none .rw .none with state := .freeing, recallSet := [3] })] with
      offers := [(1, ⟨4, some ⟨11, 2, 1, .none, 9000⟩⟩)]
      recalls := [(3, some ⟨12, .free, 2, 1, false, ⟨some .notice, none, some .notice, none⟩, some 8400⟩)]
      owned := ⟨0, 0, 2, 0⟩ }
    let t := after (.linkDown 2) s
    (t.port 2).portState = .leaving ∧ (t.port 2).linkUp = false ∧ (t.frame 11).offer = none ∧
      t.record 3 = some ⟨12, .free, 2, 1, true, ⟨some .closing, none, some .closing, none⟩, none⟩ ∧
      (t.port 1).events = [.offerClosed ⟨1, 4⟩ 11 .partyLeft] ∧ t.drainChecks = [(0, 12)] := by decide +kernel

/-! ### Start-up, after Chapter 9's example -/

/-- RESET_N just deasserted with strap code 1. -/
def starting : State := { State.reset with resetAsserted := false, strap := 1, promSelect := true }

/-- The example's image; the CRC over its first 62 bytes is EEE3h. -/
def image9 : List Byte :=
  [0x3A, 1, 7, 0, 11, 184, 11, 184, 8, 144, 0, 0, 0, 250, 7, 208] ++ List.replicate 46 0 ++ [0xEE, 0xE3]

theorem test_reset_deassert :
    let t := after (.resetDeassert 1) State.reset
    t.resetAsserted = false ∧ t.promSelect = true ∧ t.strap = 1 ∧ t.load = .loading := by decide +kernel

theorem test_image_loaded :
    let t := after (.imageReceived image9) starting
    t.load = .loaded ∧ t.promSelect = false ∧
      t.config = some ⟨8192, ⟨true, true, true, false⟩, ⟨3000, 3000, 2192, 0⟩, 250, 2000⟩ := by decide +kernel

/-- The example's last paragraph: pool size code 2 fails against the strap. -/
theorem test_image_refused :
    (after (.imageReceived (image9.set 1 2)) starting).config =
      some ⟨8192, ⟨true, true, true, true⟩, ⟨2048, 2048, 2048, 2048⟩, 100, 2000⟩ := by decide +kernel

/-- R160: the time-out is at tick 100, not at 99. -/
theorem test_load_timeout :
    (after .loadTimeout { starting with tick := 100 }).load = .defaulted ∧
      (after .loadTimeout { starting with tick := 99 }).load = .loading := by decide +kernel

/-- R160: the image that comes after tick 100 is ignored; the next tick ends the load if LOAD_TIMEOUT has not. -/
theorem test_image_too_late :
    (after (.imageReceived image9) { starting with tick := 100 }).load = .loading ∧
      (after (.imageReceived image9) { starting with tick := 99 }).load = .loaded ∧
      (after .tick { starting with tick := 100 }).load = .defaulted := by decide +kernel

/-- R164, R165: an expiry that has not come at its tick is taken before the counter moves on; none comes before. -/
theorem test_tick_takes_expiries :
    (let t := after .tick (recalled220 .notice (some 5020) false [] 5020)
     t.tick = 5021 ∧ t.record 2 = some (record220 .closing none) ∧ (t.frame 220).closing.get 3 = true) ∧
    (after .tick (recalled220 .notice (some 5020) false [] 5019)).record 2 = some (record220 .notice (some 5020)) ∧
    (after .tick (offered1500 .none 14000)).offerSlot 1 = ⟨7, none⟩ ∧
    (after .tick (offered1500 .none 13999)).offerSlot 1 = ⟨6, some ⟨1500, 0, 2, .none, 14000⟩⟩ := by decide +kernel

theorem test_tick_wraps : (after .tick { starting with tick := 0xFFFFFFFF }).tick = 0 := by decide +kernel

/-- Chapter 9's example: the link up gives ATTACHED and 32 credits. -/
theorem test_link_up :
    let t := after (.linkUp 0) starting
    (t.port 0).portState = .attached ∧ (t.port 0).sent = [.creditGrant (List.finRange 32)] := by decide +kernel

theorem test_link_down_attached :
    (after (.linkDown 3) base).port 3 = { HostPort.initial with portState := .down } := by decide +kernel

theorem test_device_reset :
    let t := after .deviceReset { owned7 with pending := [.tick] }
    t.pending = [.tick] ∧ t.resetAsserted = true ∧ t.freeList = [] ∧ t.config = none ∧ t.ports = PerHost.all .initial := by
  decide +kernel

/-! ### States that meet the hypotheses of the statements -/

/-- A state in which a host's one waiting descriptor is the one taken next, with a property of the two. -/
def Meets (s : State) (h : HostId) (l : List (Nat × Byte)) (code : Byte) (p : State → Desc → Prop) : Prop :=
  (ask s h l).Takes h (desc l) code ∧ p (ask s h l) (desc l)

theorem meets_of {s : State} {h : HostId} {l : List (Nat × Byte)} {code : Byte} {p : State → Desc → Prop}
    (hp : (ask s h l).picked = some (h, cmd l) ∧ (desc l).code = code ∧ p (ask s h l) (desc l)) : Meets s h l code p :=
  ⟨takes_of hp.1 hp.2.1, hp.2.2⟩

theorem witness_StepRunsFrontCommand :
    ({ base with pending := [.tick, .poolGrant] } : State).pending = .tick :: [.poolGrant] := rfl

theorem witness_ArbiterRotates_picks :
    (ask { base with cmdPointer := 3 } 1 [(0, 0x12)]).picked = some (1, cmd [(0, 0x12)]) := by decide +kernel

theorem witness_ArbiterRotates_waits :
    (base.setPort 1 { base.port 1 with queue := [cmd []], events := List.replicate 63 (.hostLeft 2), reserved := 1 }).picked =
      none := by decide +kernel

theorem witness_FieldsOutsideValues_alloc : Meets base 0 [(0, 1), (7, 9)] codeAlloc (fun _ d => 8 < d.count) ∧
    Meets base 0 [(0, 1)] codeAlloc (fun _ d => d.count = 0) := ⟨meets_of (by decide +kernel), meets_of (by decide +kernel)⟩

theorem witness_FieldsOutsideValues_frame :
    Meets base 0 [(0, 0x0B), (5, 0x10)] codeSetLabel (fun s d => s.frameCount ≤ d.frame) ∧
    Meets base 0 [(0, 0x0C), (5, 0x10)] codeSetInherit (fun s d => s.frameCount ≤ d.frame) ∧
    Meets base 0 [(0, 0x11), (5, 0x10)] codeQueryFrame (fun s d => s.frameCount ≤ d.frame) ∧
    Meets base 0 [(0, 0x06), (5, 0x10)] codeRelease (fun s d => s.frameCount ≤ d.frame) :=
  ⟨meets_of (by decide +kernel), meets_of (by decide +kernel), meets_of (by decide +kernel), meets_of (by decide +kernel)⟩

theorem witness_FieldsOutsideValues_recall :
    Meets base 0 [(0, 0x03), (9, 2)] codeFree (fun _ d => 1 < d.mode) ∧
    Meets base 0 [(0, 0x04), (8, 3)] codeGrant (fun _ d => 2 < d.level) ∧
    Meets base 0 [(0, 0x04), (6, 1)] codeGrant (fun _ d => d.level = 0) ∧
    Meets base 0 [(0, 0x05), (6, 4)] codeRevoke (fun _ d => 3 < d.host) ∧
    Meets base 0 [(0, 0x07), (8, 3)] codeOffer (fun _ d => 2 < d.level) :=
  ⟨meets_of (by decide +kernel), meets_of (by decide +kernel), meets_of (by decide +kernel), meets_of (by decide +kernel),
    meets_of (by decide +kernel)⟩

theorem witness_FieldsOutsideValues_window :
    Meets base 0 [(0, 0x0D), (17, 15)] codeSetWindow (fun _ d => 14 < d.sizeCode) ∧
    Meets base 0 [(0, 0x0E), (16, 8)] codeClearWindow (fun _ d => 7 < d.window) ∧
    Meets base 0 [(0, 0x0F), (31, 0x10)] codeMapSlot (fun _ d => 4095 < d.slot) ∧
    Meets base 0 [(0, 0x10), (31, 0x10)] codeUnmapSlot (fun _ d => 4095 < d.slot) :=
  ⟨meets_of (by decide +kernel), meets_of (by decide +kernel), meets_of (by decide +kernel), meets_of (by decide +kernel)⟩

theorem witness_UnknownCodeAnswered :
    Meets base 0 [] 0 (fun _ _ => True) ∧ Meets base 0 [(0, 0x14)] 0x14 (fun _ _ => 0x13 < (0x14 : Byte).toNat) :=
  ⟨meets_of (by decide +kernel), meets_of (by decide +kernel)⟩

/-- The quota and the Free List are met exactly. -/
theorem witness_AllocTaken_served : Meets { owned7 with owned := ⟨1023, 0, 0, 0⟩ } 0 [(0, 1), (7, 1)] codeAlloc (fun s d =>
    1 ≤ d.count ∧ d.count ≤ 8 ∧ s.owned.get 0 + s.waiting.get 0 + d.count ≤ s.quotaOf 0 ∧ s.waitList = [] ∧
      d.count ≤ s.freeList.length) := meets_of (by decide +kernel)

theorem witness_AllocTaken_quota : Meets { owned7 with owned := ⟨1024, 0, 0, 0⟩ } 0 [(0, 1), (7, 1)] codeAlloc
    (fun s d => 1 ≤ d.count ∧ d.count ≤ 8 ∧ s.quotaOf 0 < s.owned.get 0 + s.waiting.get 0 + d.count) :=
  meets_of (by decide +kernel)

theorem witness_AllocTaken_waiting : Meets scrubbing3 1 [(0, 1), (7, 1)] codeAlloc
    (fun s d => 1 ≤ d.count ∧ d.count ≤ 8 ∧ s.waitList ≠ []) := meets_of (by decide +kernel)

theorem witness_AllocTaken_short : Meets owned7 0 [(0, 1), (7, 8)] codeAlloc
    (fun s d => 1 ≤ d.count ∧ d.count ≤ 8 ∧ s.freeList.length < d.count) := meets_of (by decide +kernel)

theorem witness_AllocationServed : (scrubbing3.port 0).portState = .member ∧ 0 < (scrubbing3.port 0).reserved := by
  decide +kernel

theorem witness_WaitListServedFromHead :
    base.waitList = [] ∧ scrubbing3.waitList = ⟨0, 0x10, 4, none, false⟩ :: [] ∧ scrubbing3.freeList.length < 4 ∧
      4 ≤ ({ scrubbing3 with freeList := [0, 1, 2, 3] } : State).freeList.length := by decide +kernel

theorem witness_CancelAllocTaken_not_found : Meets scrubbing3 0 [(0, 2), (2, 0x11)] codeCancelAlloc
    (fun s d => ∀ e ∈ s.waitEntry 0, e.tag ≠ d.tag) := meets_of (by decide +kernel)

theorem witness_CancelAllocTaken : Meets scrubbing3 0 [(0, 2), (2, 0x10)] codeCancelAlloc
    (fun s d => s.waitEntry 0 = some ⟨0, 0x10, 4, none, false⟩ ∧ (0x10 : BitVec 16) = d.tag ∧ 0 < (s.port 0).reserved) :=
  meets_of (by decide +kernel)

theorem witness_OwnerSetsLabelAndInherit :
    Meets owned7 0 [(0, 0x0B), (4, 7)] codeSetLabel (fun s d => d.frame < s.frameCount) ∧
    Meets owned7 0 [(0, 0x0C), (4, 0xFF), (5, 0x0F)] codeSetInherit (fun s d => d.frame < s.frameCount) :=
  ⟨meets_of (by decide +kernel), meets_of (by decide +kernel)⟩

theorem witness_QueriesReport :
    Meets owned7 2 [(0, 0x11), (4, 9)] codeQueryFrame (fun s d => d.frame < s.frameCount) ∧
    Meets owned7 2 [(0, 0x12)] codeQueryHost (fun s _ => s.config = some conf) :=
  ⟨meets_of (by decide +kernel), meets_of (by decide +kernel)⟩

theorem witness_GrantTaken : Meets owned7 0 [(0, 4), (4, 7), (6, 1), (8, 2)] codeGrant (fun s d =>
    d.frame < s.frameCount ∧ hostOfNat d.host = some 1 ∧ levelOfNat d.level = some .rw) := meets_of (by decide +kernel)

/-- A full Recall Table. -/
def fullRecalls : Table (Option RecallRecord) :=
  (List.range 16).map (fun id => (id, some ⟨300 + id, .revoke, 2, 1, true, ⟨none, none, none, some .closing⟩, none⟩))

/-- What every REVOKE that R55 lets through has in common. -/
abbrev revokeChecked (s : State) (h g : HostId) (d : Desc) : Prop :=
  d.frame < s.frameCount ∧ hostOfNat d.host = some g ∧ d.mode ≤ 1 ∧ s.ownerLeaving d.frame = false ∧
    (s.frame d.frame).owner = some h ∧ (s.frame d.frame).state = .held ∧ g ≠ h ∧ (s.frame d.frame).access.get g ≠ .none ∧
    (s.port g).portState = .member ∧ (s.frame d.frame).offer = none

theorem witness_RevokeTaken_refused : Meets lent220 1 [(0, 5), (4, 220), (6, 2)] codeRevoke (fun s d =>
    d.frame < s.frameCount ∧ hostOfNat d.host = some 2 ∧ d.mode ≤ 1 ∧ s.ownerLeaving d.frame = false ∧
      (s.frame d.frame).owner = some 1 ∧ (s.frame d.frame).state = .held ∧ (s.frame d.frame).access.get 2 = .none) :=
  meets_of (by decide +kernel)

theorem witness_RevokeTaken_busy : Meets (recalled220 .notice (some 5020) false [] 5000) 1 [(0, 5), (4, 220), (6, 3)] codeRevoke
    (fun s d => revokeChecked s 1 3 d ∧ s.Recalled d.frame 3 2 (record220 .notice (some 5020)) .notice ∧ d.mode = 0) :=
  meets_of (by decide +kernel)

theorem witness_RevokeTaken_upgrades :
    Meets (recalled220 .notice (some 5020) false [] 5000) 1 [(0, 5), (4, 220), (6, 3), (9, 1)] codeRevoke
      (fun s d => revokeChecked s 1 3 d ∧ s.Recalled d.frame 3 2 (record220 .notice (some 5020)) .notice ∧ d.mode = 1) :=
  meets_of (by decide +kernel)

theorem witness_RevokeTaken_no_record :
    Meets { lent220 with recalls := fullRecalls } 1 [(0, 5), (4, 220), (6, 3)] codeRevoke
      (fun s d => revokeChecked s 1 3 d ∧ s.recallOf d.frame 3 = none ∧ s.freeRecordId = none) :=
  meets_of (by decide +kernel)

theorem witness_RevokeTaken_forced : Meets lent220 1 [(0, 5), (4, 220), (6, 3), (9, 1)] codeRevoke
    (fun s d => revokeChecked s 1 3 d ∧ s.recallOf d.frame 3 = none ∧ s.freeRecordId = some 2 ∧ d.mode = 1) :=
  meets_of (by decide +kernel)

theorem witness_RevokeTaken_graceful : Meets lent220 1 [(0, 5), (4, 220), (6, 3), (10, 20)] codeRevoke
    (fun s d => revokeChecked s 1 3 d ∧ s.recallOf d.frame 3 = none ∧ s.freeRecordId = some 2 ∧ d.mode = 0 ∧
      s.config = some conf) := meets_of (by decide +kernel)

theorem witness_ReleaseTaken_owner : Meets lent220 1 [(0, 6), (4, 220)] codeRelease
    (fun s d => d.frame < s.frameCount ∧ (s.frame d.frame).owner = some 1) := meets_of (by decide +kernel)

theorem witness_ReleaseTaken_notice : Meets (recalled220 .notice (some 5020) false [] 5000) 3 [(0, 6), (4, 220)] codeRelease
    (fun s d => d.frame < s.frameCount ∧ (s.frame d.frame).owner ≠ some 3 ∧
      s.Recalled d.frame 3 2 (record220 .notice (some 5020)) .notice) := meets_of (by decide +kernel)

theorem witness_ReleaseTaken_closing : Meets (recalled220 .closing none true [] 5000) 3 [(0, 6), (4, 220)] codeRelease
    (fun s d => d.frame < s.frameCount ∧ (s.frame d.frame).owner ≠ some 3 ∧
      s.Recalled d.frame 3 2 (record220 .closing none) .closing) := meets_of (by decide +kernel)

theorem witness_ReleaseTaken_unrecorded : Meets lent220 3 [(0, 6), (4, 220)] codeRelease
    (fun s d => d.frame < s.frameCount ∧ (s.frame d.frame).owner ≠ some 3 ∧ s.recallOf d.frame 3 = none) :=
  meets_of (by decide +kernel)

theorem witness_ReleaseTaken_owner_leaving : Meets (leaving3 .draining false) 0 [(0, 6), (4, 0x59), (5, 2)] codeRelease
    (fun s d => d.frame < s.frameCount ∧ (s.frame d.frame).owner ≠ some 0 ∧ s.recallOf d.frame 0 = none ∧
      (s.frame d.frame).closing.get 0 = false ∧ (s.frame d.frame).access.get 0 = .none ∧
      (s.frame d.frame).owner = some 3 ∧ (s.port 3).portState = .leaving) := meets_of (by decide +kernel)

theorem witness_FreeTaken_refused : Meets owned7 1 [(0, 3), (4, 7)] codeFree (fun s d =>
    d.frame < s.frameCount ∧ d.mode ≤ 1 ∧ s.config = some conf ∧ s.ownerLeaving d.frame = false ∧
      (s.frame d.frame).owner ≠ some 1) := meets_of (by decide +kernel)

/-- What every FREE that R63 lets through has in common. -/
abbrev freeChecked (s : State) (h : HostId) (d : Desc) : Prop :=
  d.frame < s.frameCount ∧ d.mode ≤ 1 ∧ s.config = some conf ∧ s.ownerLeaving d.frame = false ∧
    (s.frame d.frame).owner = some h ∧ (s.frame d.frame).access.get h = .rw ∧ (s.frame d.frame).state = .held ∧
    (s.frame d.frame).recallSet = [] ∧ s.freeRecordId = some 0

theorem witness_FreeTaken : Meets shared300 0 [(0, 3), (4, 0x2C), (5, 1)] codeFree
    (fun s d => freeChecked s 0 d ∧ (s.frame d.frame).offer = none) := meets_of (by decide +kernel)

theorem witness_FreeTaken_offered : Meets (offered1500 .none 12000) 0 [(0, 3), (4, 0xDC), (5, 5), (9, 1)] codeFree
    (fun s d => freeChecked s 0 d ∧ (s.frame d.frame).offer = some ⟨1, 6⟩ ∧
      s.offerSlot 1 = ⟨6, some ⟨1500, 0, 2, .none, 14000⟩⟩ ∧ d.frame = 1500) := meets_of (by decide +kernel)

theorem witness_OfferTaken : Meets handed1500 0 [(0, 7), (4, 0xDC), (5, 5), (6, 2)] codeOffer (fun s d =>
    d.frame < s.frameCount ∧ hostOfNat d.host = some 2 ∧ levelOfNat d.level = some .none ∧ s.config = some conf) :=
  meets_of (by decide +kernel)

theorem witness_AcceptRefused_gone : Meets (offered1500 .none 12000) 2 [(0, 8), (14, 1), (15, 5)] codeAccept
    (fun s d => s.openOffer d.handle = none) := meets_of (by decide +kernel)

theorem witness_AcceptRefused_party : Meets (offered1500 .none 12000) 1 [(0, 8), (14, 1), (15, 6)] codeAccept
    (fun s d => s.openOffer d.handle = some ⟨1500, 0, 2, .none, 14000⟩ ∧ (2 : HostId) ≠ 1) := meets_of (by decide +kernel)

theorem witness_AcceptRefused_quota :
    Meets { offered1500 .none 12000 with owned := ⟨1, 0, 1024, 0⟩ } 2 [(0, 8), (14, 1), (15, 6)] codeAccept
      (fun s d => s.openOffer d.handle = some ⟨1500, 0, 2, .none, 14000⟩ ∧
        s.quotaOf 2 < s.owned.get 2 + s.waiting.get 2 + 1) := meets_of (by decide +kernel)

theorem witness_AcceptRefused_no_record :
    Meets { offered1500 .none 12000 with recalls := fullRecalls } 2 [(0, 8), (14, 1), (15, 6)] codeAccept
      (fun s d => s.openOffer d.handle = some ⟨1500, 0, 2, .none, 14000⟩ ∧
        s.owned.get 2 + s.waiting.get 2 + 1 ≤ s.quotaOf 2 ∧ s.freeRecordId = none) := meets_of (by decide +kernel)

theorem witness_AcceptMovesOwnership_none :
    Meets { offered1500 .none 12000 with owned := ⟨1, 0, 1023, 0⟩ } 2 [(0, 8), (14, 1), (15, 6)] codeAccept
      (fun s d => s.openOffer d.handle = some ⟨1500, 0, 2, .none, 14000⟩ ∧ (0 : HostId) ≠ 2 ∧
        s.owned.get 2 + s.waiting.get 2 + 1 ≤ s.quotaOf 2 ∧ s.freeRecordId = some 0) := meets_of (by decide +kernel)

theorem witness_AcceptMovesOwnership_residual : Meets (offered1500 .read 12000) 2 [(0, 8), (14, 1), (15, 6)] codeAccept
    (fun s d => s.openOffer d.handle = some ⟨1500, 0, 2, .read, 14000⟩ ∧ (0 : HostId) ≠ 2 ∧
      s.owned.get 2 + s.waiting.get 2 + 1 ≤ s.quotaOf 2) := meets_of (by decide +kernel)

theorem witness_OfferClosedByAParty_gone :
    Meets (offered1500 .none 12000) 2 [(0, 9), (14, 8)] codeDecline (fun s d => s.openOffer d.handle = none) ∧
    Meets (offered1500 .none 12000) 0 [(0, 10), (14, 8)] codeWithdraw (fun s d => s.openOffer d.handle = none) :=
  ⟨meets_of (by decide +kernel), meets_of (by decide +kernel)⟩

theorem witness_OfferClosedByAParty_other :
    Meets (offered1500 .none 12000) 0 [(0, 9), (14, 1), (15, 6)] codeDecline
      (fun s d => s.openOffer d.handle = some ⟨1500, 0, 2, .none, 14000⟩ ∧ (2 : HostId) ≠ 0) ∧
    Meets (offered1500 .none 12000) 2 [(0, 10), (14, 1), (15, 6)] codeWithdraw
      (fun s d => s.openOffer d.handle = some ⟨1500, 0, 2, .none, 14000⟩ ∧ (0 : HostId) ≠ 2) :=
  ⟨meets_of (by decide +kernel), meets_of (by decide +kernel)⟩

theorem witness_OfferClosedByAParty :
    Meets (offered1500 .none 12000) 2 [(0, 9), (14, 1), (15, 6)] codeDecline
      (fun s d => s.openOffer d.handle = some ⟨1500, 0, 2, .none, 14000⟩ ∧ (0 : HostId) ≠ 2) ∧
    Meets (offered1500 .none 12000) 0 [(0, 10), (14, 1), (15, 6)] codeWithdraw
      (fun s d => s.openOffer d.handle = some ⟨1500, 0, 2, .none, 14000⟩ ∧ (2 : HostId) ≠ 0) :=
  ⟨meets_of (by decide +kernel), meets_of (by decide +kernel)⟩

theorem witness_SetWindowTaken_refused : Meets view57 1 [(0, 0x0D), (16, 2)] codeSetWindow
    (fun s d => d.window ≤ 7 ∧ d.sizeCode ≤ 14 ∧ d.windowMode ≤ 1 ∧ ((s.unit 1).window d.window).isSome = true) :=
  meets_of (by decide +kernel)

/-- What every SET_WINDOW that passes R88's tests before the overlap test has in common. -/
abbrev windowChecked (s : State) (h : HostId) (d : Desc) : Prop :=
  d.window ≤ 7 ∧ d.sizeCode ≤ 14 ∧ d.windowMode ≤ 1 ∧ (s.unit h).window d.window = none ∧
    d.base % (65536 * 2 ^ d.sizeCode) = 0 ∧ d.base < 64 * 2 ^ 30 ∧
    (d.windowMode = 0 → d.first + 2 ^ d.sizeCode ≤ s.frameCount) ∧ (d.windowMode = 1 → d.first + 2 ^ d.sizeCode ≤ 4096)

/-- The last address of window 0 is shared. -/
theorem witness_SetWindowTaken_overlap : Meets view57 1 [(0, 0x0D), (16, 7), (22, 0x0F)] codeSetWindow
    (fun s d => windowChecked s 1 d ∧ (s.unit 1).window 0 = some ⟨0, 4, .direct 100, true⟩ ∧ d.base ≤ 0xFFFFF ∧
      0xFFFFF < d.base + 65536 * 2 ^ d.sizeCode ∧ 0xFFFFF < 65536 * 2 ^ 4) := meets_of (by decide +kernel)

/-- The last frames of the pool, and the last slots, in a unit with no window. -/
theorem witness_SetWindowTaken :
    Meets view57 0 [(0, 0x0D), (17, 1), (28, 0xFE), (29, 0x0F)] codeSetWindow
      (fun s d => windowChecked s 0 d ∧ (s.unit 0).windows = []) ∧
    Meets view57 0 [(0, 0x0D), (17, 1), (18, 1), (28, 0xFE), (29, 0x0F)] codeSetWindow
      (fun s d => windowChecked s 0 d ∧ (s.unit 0).windows = []) :=
  ⟨meets_of (by decide +kernel), meets_of (by decide +kernel)⟩

theorem witness_WindowAndSlotEmptied :
    Meets view57 1 [(0, 0x0E), (16, 7)] codeClearWindow (fun _ d => d.window ≤ 7) ∧
    Meets view57 1 [(0, 0x10), (30, 0xFF), (31, 0x0F)] codeUnmapSlot (fun _ d => d.slot ≤ 4095) :=
  ⟨meets_of (by decide +kernel), meets_of (by decide +kernel)⟩

theorem witness_MapSlotTaken : Meets view57 1 [(0, 0x0F), (4, 0xFF), (5, 0x0F), (30, 0xFF), (31, 0x0F)] codeMapSlot
    (fun s d => d.slot ≤ 4095 ∧ d.frame < s.frameCount) := meets_of (by decide +kernel)

theorem witness_StagingWritten : base.delivers 3 = true ∧ (base.port 3).staging.length = 32 := by decide +kernel

theorem witness_SubmissionDecided :
    base.delivers 3 = true ∧ (wr 0x080 [0, 0, 0, 0]).touches regSubmit 4 = true ∧ (base.port 3).portState ≠ .member ∧
      view57.delivers 1 = true ∧ (view57.port 1).portState = .member ∧
      ({ portIn .member with queue := List.replicate 15 [] } : HostPort).queue.length < 16 ∧
      ¬ ({ portIn .member with queue := List.replicate 16 [] } : HostPort).queue.length < 16 := by decide +kernel

theorem witness_PopsRemoveTheHead :
    base.delivers 3 = true ∧ 4 % 4 = 0 ∧ 4 ≤ 4 ∧ 4 ≤ 32 ∧ 32 % 4 = 0 ∧ 4 ≤ 32 ∧ 32 ≤ 32 := by decide +kernel

theorem witness_ClearAndEnableWritten :
    base.delivers 3 = true ∧ (wr 0x0C0 [1, 0, 0, 0]).byteAt 0x0C0 = some 1 ∧
      (wr 0x0A0 [3, 0, 0, 0]).byteAt 0x0A0 = some 3 := by decide +kernel

theorem witness_JoinRequestDecided :
    (wr 0x060 [0, 0, 0, 0]).touches regJoin 4 = true ∧ base.delivers 0 = true ∧ (base.port 0).portState ≠ .attached ∧ base.delivers 3 = true ∧
      (base.port 3).portState = .attached ∧ base.load ≠ .loading ∧ base.config = some conf ∧ conf.enabled.get 3 = false ∧
      conf.enabled.get 0 = true ∧ ({ base with ports := PerHost.all (portIn .attached) } : State).delivers 0 = true ∧
      (starting.setPort 0 (portIn .attached)).delivers 0 = true ∧ starting.load = .loading := by decide +kernel

theorem witness_AccessesWithoutEffect_link : State.reset.delivers 3 = false := by decide +kernel

/-- A control write none of whose mask flags is set. -/
theorem witness_AccessesWithoutEffect (a : Nat) :
    (⟨0x080, [(1, false), (1, false), (1, false), (1, false)]⟩ : ControlWrite).byteAt a = none := by
  unfold ControlWrite.byteAt
  split
  · next hc =>
    obtain ⟨n, hn⟩ := Nat.exists_eq_add_of_le hc.2
    simp only at hn
    subst hn
    rcases n with _ | _ | _ | _ | n <;> simp
  · rfl

theorem witness_NoticesAndFaultsPosted :
    (portIn .leaving).portState ≠ .member ∧ (portIn .member).portState = .member ∧
      ({ portIn .member with events := List.replicate 60 (.hostLeft 0), reserved := 3 } : HostPort).events.length + 3 < 64 ∧
      64 ≤ ({ portIn .member with events := List.replicate 60 (.hostLeft 0), reserved := 4 } : HostPort).events.length + 4 ∧
      ({ portIn .member with faults := List.replicate 7 faultA } : HostPort).faults.length < 8 ∧
      8 ≤ ({ portIn .member with faults := List.replicate 7 faultA ++ [faultA] } : HostPort).faults.length := by
  decide +kernel

/-- An address is outside every window before window `i`. -/
abbrev outsideBefore (u : TranslationUnit) (i address : Nat) : Prop :=
  ∀ j < i, ∀ v ∈ u.window j, ¬ (v.base ≤ address ∧ address < v.base + 65536 * 2 ^ v.sizeCode)

theorem witness_AccessCheckInOrder_outside :
    (base.port 3).portState ≠ .member ∧ (view57.port 1).portState = .member ∧
      outsideBefore (view57.unit 1) 8 0x100000 := by decide +kernel

theorem witness_AccessCheckInOrder_window :
    (view57.port 1).portState = .member ∧ (view57.unit 1).window 2 = some ⟨0x40000000, 3, .mapped 8, false⟩ ∧
      0x40020000 < 0x40000000 + 65536 * 2 ^ 3 ∧ outsideBefore (view57.unit 1) 2 0x40000000 ∧
      outsideBefore (view57.unit 1) 2 0x40020000 ∧ (view57.unit 1).slot (8 + (0x40010000 - 0x40000000) / 65536) = none ∧
      (view57.unit 1).slot (8 + (0x40020000 - 0x40000000) / 65536) = some ⟨62, 2⟩ ∧ 2 ≠ (view57.frame 62).generation ∧
      (view57.unit 1).slot (8 + (0x40000000 - 0x40000000) / 65536) = some ⟨310, (view57.frame 310).generation⟩ := by
  decide +kernel

theorem witness_AccessCheckInOrder_direct :
    (view57.unit 1).window 0 = some ⟨0, 4, .direct 100, true⟩ ∧ 0xFFFFF < 0 + 65536 * 2 ^ 4 ∧
      outsideBefore (view57.unit 1) 0 0xFFFFF ∧ 115 = 100 + (0xFFFFF - 0) / 65536 := by decide +kernel

theorem witness_DataRequestArrives :
    view57.delivers 1 = true ∧ requestExpressible ⟨5, 0x420, 31, 31, .read⟩ = true ∧
      view57.accessCheck 1 .read (0x420 * 128 + 31 * 4) = .pass 102 0x107C ∧
      view57.accessCheck 1 .read (0x2000 * 128) = .fault .noWindow none none ∧
      base.delivers 3 = true ∧ base.accessCheck 3 .read 0 = .notMember ∧ (lent220.unit 3).holdsTag 6 = true ∧
      lent220.delivers 3 = true := by decide +kernel

theorem witness_PoolGranted_nothing : ({ arbitrating 0 16 with scrubQueue := [], units := PerHost.all .initial } : State).job =
    .idle ∧ ∀ h, ∀ e ∈ (({ arbitrating 0 16 with units := PerHost.all .initial } : State).unit h).ort, e.inPool = true := by
  decide +kernel

theorem witness_PoolGranted_scrubber :
    (arbitrating 1 16).job = .idle ∧ (arbitrating 1 16).load ≠ .loading ∧ (arbitrating 1 16).scrubQueue ≠ [] ∧
      (arbitrating 1 16).turn = 16 := by decide +kernel

/-- From pointer 3 the search passes port 3 and finds port 0. -/
theorem witness_PoolGranted_port :
    (arbitrating 3 15).job = .idle ∧ (arbitrating 3 15).turn ≠ 16 ∧
      ((arbitrating 3 15).unit 0).ort = [] ++ ortWrite 1 50 false :: [] ∧
      ∀ n : Fin 4, n < 0 - (arbitrating 3 15).portPointer → ∀ x ∈ ((arbitrating 3 15).unit
        ((arbitrating 3 15).portPointer + n)).ort, x.inPool = true := by decide +kernel

theorem witness_ScrubWriteEnds :
    scrubbing3.job = .scrub ∧ scrubbing3.scrubQueue = 3 :: [4] ∧ scrubbing3.scrubPos = 1023 ∧
      ({ scrubbing3 with scrubPos := 1022 } : State).scrubPos < 1023 := by decide +kernel

/-- The read of `known`. -/
def read17 : OrtEntry := ⟨17, .read, 0x2040, 900, 0x2040, 8, true⟩

theorem witness_ReadEnds :
    (known .single).job = .port 3 ∧ (known .single).inPoolEntry 3 = some read17 ∧
      (∀ be ∈ read17.poolBlocks.zip [BlockError.none, .none],
        ((known .single).blockError be.1).worse be.2 ≠ .uncorrectable) ∧
      ∃ be ∈ read17.poolBlocks.zip [BlockError.uncorrectable, .none],
        ((known .single).blockError be.1).worse be.2 = .uncorrectable := by decide +kernel

/-- The entry of `known` as an eight-byte write. -/
def write9 : OrtEntry := { read17 with access := .write (List.replicate 8 (7, true)) }

def knownWrite : State :=
  { known .none with units := ⟨.initial, .initial, .initial, ⟨[], [], [write9]⟩⟩ }

theorem witness_WriteEnds :
    knownWrite.job = .port 3 ∧ knownWrite.inPoolEntry 3 = some write9 ∧ write9.offset % 128 + write9.length ≤ 128 ∧
      (∀ be ∈ write9.poolBlocks.zip [BlockError.single, .none], write9.partialIn be.1 = true →
        (knownWrite.blockError be.1).worse be.2 ≠ .uncorrectable) ∧
      ∃ be ∈ write9.poolBlocks.zip [BlockError.uncorrectable, .none], write9.partialIn be.1 = true ∧
        (knownWrite.blockError be.1).worse be.2 = .uncorrectable := by decide +kernel

theorem witness_RetirementAnswersAndReports :
    (lent220.frame 220).closing.get 3 = false ∧
      (let s := recalled220 .closing none true [ortWrite 9 220 true, ortWrite 11 220 false] 5022
       (s.frame 220).closing.get 3 = true ∧ ∃ x ∈ (s.unit 3).ort, x.tag ≠ 9 ∧ x.frame = 220) ∧
      let s := recalled220 .closing none true [ortWrite 9 220 true] 5022
      (s.frame 220).closing.get 3 = true ∧ ∀ x ∈ (s.unit 3).ort, x.frame = 220 → x.tag = 9 := by decide +kernel

theorem witness_DrainCheckMade_waits :
    let s := recalled220 .closing none true [ortWrite 9 220 true] 5022
    (3, 220) ∈ s.drainChecks ∧ ∃ e ∈ (s.unit 3).ort, e.frame = 220 := by decide +kernel

theorem witness_DrainCheckMade_drains :
    let s := recalled220 .closing none true [] 5022
    (3, 220) ∈ s.drainChecks ∧ (∀ e ∈ (s.unit 3).ort, e.frame ≠ 220) ∧ (s.frame 220).closing.get 3 = true ∧
      s.Recalled 220 3 2 (record220 .closing none) .closing := by decide +kernel

/-- No forced freeing: the access of host 3 on frame 220 is closed, and no record withdraws it. -/
theorem witness_DrainCheckMade_ignored :
    let s := { recalled220 .closing none true [] 5022 with recalls := [] }
    (s.frame 220).closing.get 3 = true ∧ s.recallOf 220 3 = none ∧ (s.frame 220).owner = some 1 ∧
      s.departures.get 1 = none ∧ (lent220.frame 220).closing.get 3 = false := by decide +kernel

theorem witness_DrainCheckMade_swept :
    let s := { leaving3 (.sweeping 601 true) true with units := PerHost.all .initial }
    (2, 601) ∈ s.drainChecks ∧ (∀ e ∈ (s.unit 2).ort, e.frame ≠ 601) ∧ (s.frame 601).closing.get 2 = true ∧
      s.recallOf 601 2 = none ∧ (s.frame 601).owner = some 3 ∧
      s.departures.get 3 = some ⟨.leave 0x77, .sweeping 601 true⟩ := by decide +kernel

/-- The clauses of TargetsCloseTogether have a record with a target in NOTICE to speak of. -/
theorem witness_TargetsCloseTogether :
    (recalled220 .notice (some 5020) false [] 5000).record 2 = some (record220 .notice (some 5020)) ∧
      ∃ k, (record220 .notice (some 5020)).targets.get k = some .notice := by decide +kernel

/-- The record of frame 12 with host 2 as owner: one target drains before the last, host 0's before the owner's. -/
def freeing12 : RecallRecord := ⟨12, .free, 2, 1, true, ⟨some .closing, none, some .closing, none⟩, none⟩

theorem witness_LastDrainCompletesRecord :
    (recalled220 .closing none true [] 5022).record 2 = some (record220 .closing none) ∧
      (record220 .closing none).undrained 3 = true ∧ (record220 .closing none).othersDrained 3 = true ∧
      (∀ k, k ≠ 3 → (record220 .closing none).targets.get k ≠ some .notice) ∧
      ({ pool [] with recalls := [(3, some freeing12)] } : State).record 3 = some freeing12 ∧
      freeing12.undrained 0 = true ∧ freeing12.undrained 2 = true := by decide +kernel

theorem witness_OwnedFrameEntersScrubbing :
    (owned7.frame 7).owner = some 0 ∧ (owned7.frame 7).state = .held := by decide +kernel

/-- At the deadline, and one tick before it. -/
theorem witness_GraceExpires :
    (recalled220 .notice (some 5020) false [] 5020).record 2 = some (record220 .notice (some 5020)) ∧
      (5020 - 5020 : BitVec 32).toNat < 2 ^ 31 ∧ 2 ^ 31 ≤ (5019 - 5020 : BitVec 32).toNat := by decide +kernel

theorem witness_OfferExpires :
    (offered1500 .none 14000).offerSlot 1 = ⟨6, some ⟨1500, 0, 2, .none, 14000⟩⟩ ∧
      (14000 - 14000 : BitVec 32).toNat < 2 ^ 31 ∧ 2 ^ 31 ≤ (13999 - 14000 : BitVec 32).toNat := by decide +kernel

theorem witness_DepartureStarts :
    Meets owned7 0 [(0, 0x13)] codeLeave (fun _ _ => True) ∧ (owned7.port 0).portState = .member :=
  ⟨meets_of (by decide +kernel), rfl⟩

theorem witness_DrainPhaseEnds :
    (leaving3 .draining false).departures.get 3 = some ⟨.leave 0x77, .draining⟩ ∧
      ((leaving3 .draining false).unit 3).ort = [] ∧ (leaving3 .draining false).recalls = [] ∧
      ((leaving3 .draining false).setUnit 3 ⟨[], [], [read17]⟩).unit 3 = ⟨[], [], [read17]⟩ ∧
      (leaving3 (.sweeping 7 false) false).departures.get 3 = some ⟨.leave 0x77, .sweeping 7 false⟩ := by decide +kernel

theorem witness_DrainPhaseEnds_one_recall : (recalled220 .closing none true [] 5022).OneRecallEach := by
  intro i j ri rj hi hj hf h hui huj
  have key : ∀ k r, (recalled220 .closing none true [] 5022).record k = some r → k = 0 ∧ r.frame = 300 ∨
      k = 1 ∧ r.frame = 301 ∨ k = 2 ∧ r.frame = 220 := by
    intro k r hr
    simp only [State.record, recalled220, twoRecords, List.cons_append, List.nil_append, Table.get] at hr
    split at hr
    · next hk => exact Or.inl ⟨hk, by cases hr; rfl⟩
    · split at hr
      · next hk => exact Or.inr (Or.inl ⟨hk, by cases hr; rfl⟩)
      · split at hr
        · next hk => exact Or.inr (Or.inr ⟨hk, by cases hr; rfl⟩)
        · cases hr
  rcases key i ri hi with a | a | a <;> rcases key j rj hj with b | b | b <;> omega

/-- The drain phase of host 3 with a record, another target left in it or none, and with an access that host 2's sweep has
closed. -/
theorem witness_DrainPhaseEnds_drains :
    (recalled220 .closing none true [] 5022).record 2 = some (record220 .closing none) ∧
      (record220 .closing none).undrained 3 = true ∧ (record220 .closing none).purpose ≠ .free ∧
      (record220 .closing none).othersDrained 3 = true ∧ freeing12.undrained 0 = true ∧ freeing12.requester ≠ 0 ∧
      freeing12.othersDrained 0 = false ∧
      (let s : State :=
        { pool [(601, { heldBy 2 .none .none .rw .read with closing := ⟨false, false, false, true⟩ })] with
          departures := ⟨none, none, some ⟨.link, .sweeping 601 true⟩, some ⟨.link, .draining⟩⟩ }
       s.departures.get 3 = some ⟨.link, .draining⟩ ∧ (s.unit 3).ort = [] ∧ (s.frame 601).owner = some 2 ∧
         s.departures.get 2 = some ⟨.link, .sweeping 601 true⟩ ∧ (s.frame 601).state = .held ∧ s.recallOf 601 3 = none ∧
         (s.frame 601).closing.get 3 = true ∧ ∀ k, k ≠ 2 → k ≠ 3 → (s.frame 601).access.get k = .none) := by
  decide +kernel

theorem witness_SweepStepTaken_passes_or_waits :
    let s := fun f freeing => leaving3 (.sweeping f freeing) freeing
    (s 601 true).departures.get 3 = some ⟨.leave 0x77, .sweeping 601 true⟩ ∧
      ((s 5 false).frame 5).owner ≠ some 3 ∧ ((s 5 false).frame 5).access.get 3 = .none ∧
      ((recalled220 .closing none true [] 0).frame 220).access.get 3 ≠ .none ∧
      ((recalled220 .closing none true [] 0).frame 220).closing.get 3 = true := by decide +kernel

theorem witness_SweepStepTaken_drops :
    let s := leaving3 (.sweeping 700 false) false
    (s.frame 700).closing.get 3 = false ∧ (s.frame 700).recallSet = [] ∧ (s.frame 700).owner = some 2 ∧
      (s.frame 700).access.get 3 ≠ .none := by decide +kernel

theorem witness_SweepStepTaken_inherits :
    let s := leaving3 (.sweeping 600 false) false
    (s.frame 600).closing.get 3 = false ∧ (s.frame 600).recallSet = [] ∧ (s.frame 600).owner = some 3 ∧
      (s.frame 600).state = .held ∧ (s.frame 600).inheritFlag = true ∧ s.heirOf 600 3 = some 1 := by decide +kernel

theorem witness_SweepStepTaken_frees :
    let s := leaving3 (.sweeping 601 false) false
    (s.frame 601).closing.get 3 = false ∧ (s.frame 601).recallSet = [] ∧ (s.frame 601).owner = some 3 ∧
      (s.frame 601).state = .held ∧ (s.frame 601).inheritFlag = false ∧ (s.frame 601).access.get 2 ≠ .none := by
  decide +kernel

theorem witness_SweepStepTaken_frees_at_once :
    let s := { leaving3 (.sweeping 601 false) false with frames := [(601, heldBy 3 .none .none .none .rw)] }
    (s.frame 601).owner = some 3 ∧ (s.frame 601).state = .held ∧
      ∀ k, k ≠ 3 → (s.frame 601).access.get k = .none := by decide +kernel

theorem witness_SearchesFindTheLowest :
    (leaving3 (.sweeping 600 false) false).heirOf 600 3 = some 1 ∧
      (leaving3 (.sweeping 601 false) false).heirOf 601 3 = none := by decide +kernel

theorem witness_LastPassEndsDeparture :
    let s := leaving3 (.sweeping 4095 false) false
    4094 + 1 < s.frameCount ∧ 4095 + 1 = s.frameCount ∧ (s.port 3).linkUp = true ∧
      (s.setPort 3 { s.port 3 with linkUp := false }).port 3 = { portIn .leaving with linkUp := false } := by decide +kernel

/-- Nothing is due; the load times out; a grace expiry is due, its neighbours' deadlines are not. -/
theorem witness_TicksReachDeadlines :
    base.resetAsserted = false ∧ base.load ≠ .loading ∧ base.recalls = [] ∧ base.offers = [] ∧
      ({ starting with tick := 100 } : State).load = .loading ∧ ({ starting with tick := 100 } : State).tick.toNat = 100 ∧
      starting.recalls = [] ∧ starting.offers = [] ∧
      (recalled220 .notice (some 5020) false [] 5020).resetAsserted = false ∧ 1 ≤ 65535 ∧ 65535 ≤ 65535 ∧
      65534 ≤ 65535 := by decide +kernel

theorem witness_LoadEnds_timeout :
    ({ starting with tick := 100 } : State).resetAsserted = false ∧ ({ starting with tick := 100 } : State).load = .loading ∧
      ({ starting with tick := 100 } : State).tick.toNat = 100 ∧ ({ starting with tick := 99 } : State).tick.toNat < 100 ∧
      100 ≤ ({ starting with tick := 101 } : State).tick.toNat ∧ State.reset.resetAsserted = true ∧
      base.load ≠ .loading := by decide +kernel

/-- The image of Chapter 9's example passes each check; with the wrong size code it fails two. -/
theorem witness_LoadEnds_image :
    let word := fun i => 256 * (byteAt image9 i).toNat + (byteAt image9 (i + 1)).toNat
    starting.tick.toNat < 100 ∧ image9.length = 64 ∧ (crc16 (image9.take 62)).toNat = word 62 ∧ byteAt image9 0 = 0x3A ∧
      (byteAt image9 1).toNat = 1 ∧ word 4 ≤ 8192 ∧ word 6 ≤ 8192 ∧ word 8 ≤ 8192 ∧ word 10 ≤ 8192 ∧ word 12 ≠ 0 ∧
      word 14 ≠ 0 ∧ (byteAt (image9.set 1 2) 1).toNat = 2 ∧ (image9.set 1 2).length = 64 := by decide +kernel

theorem witness_LinksReported :
    (base.port 3).linkUp = true ∧ starting.resetAsserted = false ∧ (starting.port 0).linkUp = false ∧
      (starting.port 0).portState = .down ∧ (base.port 3).portState = .attached ∧
      ((leaving3 .draining false).port 3).portState = .leaving := by decide +kernel

theorem witness_ResetTakenAndReleased : State.reset.resetAsserted = true := rfl

/-! ### A state under which the laws hold, with a step from it -/

/-- Four frames, three of them to be scrubbed, one recalled from host 1; host 0 is a member with a QUERY_HOST waiting. -/
def lawful : State :=
  { base with
    pending := [.queryHost]
    config := some { conf with frames := 4 }
    frames := [(2, { heldBy 0 .rw .read .none .none with closing := ⟨false, true, false, false⟩, recallSet := [0] })]
    recalls := [(0, some ⟨2, .revoke, 0, 5, true, ⟨none, some .closing, none, none⟩, none⟩)]
    scrubQueue := [0, 1, 3], owned := ⟨1, 0, 0, 0⟩
    ports := ⟨{ portIn .member with queue := [cmd [(0, 0x12)]], reserved := 1 }, portIn .member, portIn .member,
      portIn .attached⟩
    mem := [(3, 7)], blocks := [(0, .known .none)] }

theorem witness_laws_step : ∃ t, step lawful = .next t ∧ (t.port 0).events.length = 1 := ⟨_, rfl, by decide +kernel⟩

theorem witness_TablesStayCanonical : lawful.TablesCanonical := by
  unfold State.TablesCanonical
  decide +kernel

theorem witness_InterruptLinesFollow : lawful.HirqFollows := by
  unfold State.HirqFollows
  decide +kernel

theorem witness_MembershipStaysSound : lawful.MembershipSound := by
  unfold State.MembershipSound State.PortConsistent State.MembersAfterLoad
  decide +kernel

theorem witness_BoundsKept : lawful.Bounded := by
  unfold State.Bounded HostPort.Bounded
  decide +kernel

theorem lawful_frame (f : Nat) : lawful.frame f =
    if f = 2 then { heldBy 0 .rw .read .none .none with closing := ⟨false, true, false, false⟩, recallSet := [0] }
    else FrameRecord.initial := rfl

theorem witness_FrameLawKept : lawful.FrameLaw := by
  refine ⟨by decide, by decide, fun f => ?_, fun f => ?_, fun f hf => ?_⟩
  · rw [lawful_frame]
    split <;> simp [lawful, base, State.reset, heldBy, FrameRecord.initial]
  · have h4 : lawful.frameCount = 4 := rfl
    rw [lawful_frame, h4]
    split
    · next h2 => subst h2; simp [lawful, heldBy]
    · simp [lawful, FrameRecord.initial]
      omega
  · have h4 : lawful.frameCount = 4 := rfl
    rw [lawful_frame, if_neg (by omega)]
    rfl

theorem lawful_record (id : Nat) : lawful.record id =
    if id = 0 then some ⟨2, .revoke, 0, 5, true, ⟨none, some .closing, none, none⟩, none⟩ else none := rfl

/-- The premise of the last clause of TicksReachDeadlines. -/
theorem witness_TicksReachDeadlines_law : lawful.NonePassed := by
  refine ⟨fun h => (by cases h), ?_, ?_, ?_⟩
  · intro c hc
    cases hc
    decide
  · intro id r dl hr hd
    rw [lawful_record] at hr
    split at hr
    · cases hr
      cases hd
    · cases hr
  · intro i o ho
    have : lawful.offerSlot i = ⟨0, none⟩ := rfl
    rw [this] at ho
    cases ho

theorem witness_QuotaLawKept : lawful.QuotaLaw := by
  refine ⟨⟨by decide, by decide, ?_⟩, ?_⟩
  · decide +kernel
  · decide +kernel

theorem witness_RecallLawKept : lawful.RecallLaw := by
  refine ⟨?_, ?_, ?_, ?_, ?_, ?_⟩
  · intro i j ri rj hi hj _ _ _ _
    rw [lawful_record] at hi hj
    split at hi <;> split at hj <;> simp_all
  · intro id r hr
    rw [lawful_record] at hr
    split at hr
    · next h0 => subst h0; decide
    · cases hr
  · intro f id
    rw [lawful_frame, lawful_record]
    by_cases hf : f = 2 <;> by_cases hid : id = 0 <;> simp [hf, hid, FrameRecord.initial]
    intro h2
    exact hf h2.symm
  · intro i o ho
    have : lawful.offerSlot i = ⟨0, none⟩ := rfl
    rw [this] at ho
    cases ho
  · intro f hd ho
    rw [lawful_frame] at ho
    split at ho <;> cases ho
  · intro hc
    cases hc

end Sys2Proof.Tests
end

section
/-! SUPPORT. What Chapter 1's commands read of a state, and what allocation service makes of it (R20 to R27). -/

namespace Sys2Proof.Machine

variable (s : State) (h : HostId)

/-! ### The Allocation Wait List -/

/-- A host has an entry exactly when some entry of the list is its own (R22). -/
theorem State.waitEntry_isSome_iff : (s.waitEntry h).isSome = true ↔ ∃ e ∈ s.waitList, e.host = h := by
  simp [State.waitEntry, List.find?_isSome]

/-- The taking of an ALLOC does not change which case of R20 applies. -/
theorem State.beginTaking_allocCase (d : Desc) : (s.beginTaking h).allocCase h d = s.allocCase h d := rfl

/-! ### Allocation service -/

/-- The frames of a list allocated to a host one after another: the Frame Table's part of allocation service (R21). -/
def State.allocateAll (s : State) (h : HostId) (label : Option (BitVec 16)) (inh : Bool) (l : List Nat) : State :=
  l.foldl (fun s f => s.updFrame f (·.allocate h label inh)) s

variable (label : Option (BitVec 16)) (inh : Bool)

theorem State.allocateAll_cons (f : Nat) (l : List Nat) :
    s.allocateAll h label inh (f :: l) =
      (s.setFrame f ((s.frame f).allocate h label inh)).allocateAll h label inh l := rfl

/-- Allocation of frames changes nothing but the Frame Table. -/
theorem State.allocateAll_eq (l : List Nat) :
    s.allocateAll h label inh l = { s with frames := (s.allocateAll h label inh l).frames } := by
  induction l generalizing s with
  | nil => rfl
  | cons f l ih => exact ih (s.setFrame f ((s.frame f).allocate h label inh))

/-- Allocation to the same host a second time changes nothing, so a frame's place in the list does not matter. -/
theorem FrameRecord.allocate_allocate (r : FrameRecord) :
    (r.allocate h label inh).allocate h label inh = r.allocate h label inh := rfl

theorem State.allocateAll_frame (l : List Nat) (g : Nat) :
    (s.allocateAll h label inh l).frame g =
      if g ∈ l then (s.frame g).allocate h label inh else s.frame g := by
  induction l generalizing s with
  | nil => rfl
  | cons f l ih =>
    rw [State.allocateAll_cons, ih, State.setFrame_frame]
    by_cases hg : g = f
    · subst hg
      simp [FrameRecord.allocate_allocate]
    · simp [hg]

variable (tag : BitVec 16) (count : Nat)

/-- Allocation service in its parts: the lists and counts, the frames, then the completion (R21). -/
theorem State.allocService_eq_complete :
    s.allocService h tag count label inh =
      (({ s with freeList := s.freeList.drop count, owned := s.owned.set h (s.owned.get h + count) }
        : State).allocateAll h label inh (s.freeList.take count)).complete h tag codeAlloc .ok
          (.frames (s.freeList.take count)) := rfl

/-- Every frame taken from the Free List is allocated, every other frame is as it was. -/
theorem State.allocService_frame (g : Nat) :
    (s.allocService h tag count label inh).frame g =
      if g ∈ s.freeList.take count then (s.frame g).allocate h label inh else s.frame g :=
  State.allocateAll_frame _ h label inh _ g

/-- Beside the frames, allocation service changes the Free List, the owned count and the host's port alone. -/
theorem State.allocService_eq :
    s.allocService h tag count label inh =
      { s.setPort h ((s.port h).postCompletion
          (.completion tag codeAlloc .ok (.frames (s.freeList.take count)))) with
        freeList := s.freeList.drop count
        owned := s.owned.set h (s.owned.get h + count)
        frames := (s.allocService h tag count label inh).frames } := by
  rw [State.allocService_eq_complete, State.allocateAll_eq]
  rfl

/-! ### Completions that find a reservation -/

/-- A completion moves from the reserved count to the tail of the Event Queue (R129). -/
theorem HostPort.postCompletion_reserved {p : HostPort} (e : Event) (hm : p.portState = .member)
    (hr : 0 < p.reserved) :
    p.postCompletion e = { p with events := p.events ++ [e], reserved := p.reserved - 1 }.refreshHirq := by
  simp [HostPort.postCompletion, hm, hr]

/-- With a record in the Event Queue the interrupt condition asks of it only the enable (R139). -/
theorem HostPort.hirqCondition_of_events {p : HostPort} (hp : p.events ≠ []) :
    p.hirqCondition = (p.eventIe || (p.faultIe && !p.faults.isEmpty)) := by
  have full : p.events.isEmpty = false := List.isEmpty_eq_false_iff.mpr hp
  simp [HostPort.hirqCondition, full]

/-- A taken command that posts the completion of an earlier command of its host and then its own: the descriptor has
left the queue, both records stand in order, and the earlier command's reservation is used up (R24, R129). -/
theorem HostPort.complete_taken_twice {p : HostPort} (hm : p.portState = .member) (hr : 0 < p.reserved)
    (e₁ e₂ : Event) :
    (({ p with queue := p.queue.tail, reserved := p.reserved + 1 } : HostPort).postCompletion e₁).postCompletion e₂ =
      ({ p with queue := p.queue.tail, reserved := p.reserved - 1, events := p.events ++ [e₁, e₂] }
        : HostPort).refreshHirq := by
  rw [HostPort.complete_taken hm e₁, HostPort.postCompletion_reserved (p := p.answered e₁) e₂ hm hr]
  simp [HostPort.answered, HostPort.refreshHirq, HostPort.hirqCondition]

/-! ### CANCEL_ALLOC -/

variable {s h}

theorem cancelAllocEffect_not_found {d : Desc} (hn : ∀ e, s.waitEntry h = some e → e.tag ≠ d.tag) :
    cancelAllocEffect h d s = s.finish h d .notFound := by
  unfold cancelAllocEffect
  split
  · next e he => rw [if_neg (hn e he)]
  · rfl

theorem cancelAllocEffect_found {d : Desc} {e : WaitEntry} (he : s.waitEntry h = some e) (ht : e.tag = d.tag) :
    cancelAllocEffect h d s =
      if s.waitsAtHead h then
        (((s.removeWaiting h).complete h d.tag codeAlloc .cancelled .none).finish h d .ok).serveWaitList
      else ((s.removeWaiting h).complete h d.tag codeAlloc .cancelled .none).finish h d .ok := by
  simp only [cancelAllocEffect, he, ht, if_true]

/-- The state between the removal of a cancelled entry and the service of the wait list. -/
theorem State.cancelled_taken {d : Desc} (hm : (s.port h).portState = .member) (hr : 0 < (s.port h).reserved) :
    (((s.beginTaking h).removeWaiting h).complete h d.tag codeAlloc .cancelled .none).finish h d .ok =
      { s.setPort h ({ s.port h with
          queue := (s.port h).queue.tail
          reserved := (s.port h).reserved - 1
          events := (s.port h).events ++
            [.completion d.tag codeAlloc .cancelled .none, .completion d.tag d.code .ok .none]
        } : HostPort).refreshHirq with
        cmdPointer := h + 1
        waitList := s.waitList.filter (fun x => x.host ≠ h)
        waiting := s.waiting.set h 0 } := by
  have removed : ((s.beginTaking h).removeWaiting h).port h = (s.beginTaking h).port h := rfl
  rw [State.finish_eq, State.complete_eq, State.setPort_setPort, State.setPort_port, if_pos rfl, removed,
    State.beginTaking_port, if_pos rfl, HostPort.complete_taken_twice hm hr]
  simp [State.setPort, State.removeWaiting, State.beginTaking]

/-! ### SET_LABEL and SET_INHERIT -/

/-- The refusal of SET_LABEL and SET_INHERIT, the first that applies (R25, R26). -/
def State.ownerRefusal (s : State) (h : HostId) (f : Nat) : Option Result :=
  if s.frameCount ≤ f then some .badArgument
  else if s.ownerLeaving f then some .ownerLeaving
  else if (s.frame f).owner ≠ some h then some .notOwner
  else if (s.frame f).state ≠ .held then some .wrongState
  else none

/-- The owner's check answers OK where nothing is refused, and the refusal otherwise. -/
theorem State.ownerRefusal_eq (s : State) (h : HostId) (f : Nat) :
    s.ownerRefusal h f = if s.ownerCheck h f = .ok then none else some (s.ownerCheck h f) := by
  unfold State.ownerRefusal State.ownerCheck
  split_ifs <;> simp_all

theorem State.ownerCheck_of_refusal_none {f : Nat} (hn : s.ownerRefusal h f = none) : s.ownerCheck h f = .ok := by
  simpa [State.ownerRefusal_eq] using hn

theorem State.ownerCheck_of_refusal {f : Nat} {r : Result} (hr : s.ownerRefusal h f = some r) :
    s.ownerCheck h f = r ∧ r ≠ .ok := by
  rw [State.ownerRefusal_eq] at hr
  split at hr
  · cases hr
  · next hne =>
    obtain rfl := Option.some.inj hr
    exact ⟨rfl, hne⟩

/-- The taking of a command does not change what it is refused with. -/
theorem State.beginTaking_ownerRefusal (s : State) (h : HostId) (f : Nat) :
    (s.beginTaking h).ownerRefusal h f = s.ownerRefusal h f := by
  simp only [State.ownerRefusal, State.beginTaking_frameCount, State.beginTaking_ownerLeaving,
    State.beginTaking_frame]
  rfl

variable {d : Desc} {r : Result}

theorem setLabelEffect_refused (hr : s.ownerRefusal h d.frame = some r) :
    setLabelEffect h d s = s.finish h d r := by
  obtain ⟨rfl, hne⟩ := State.ownerCheck_of_refusal hr
  unfold setLabelEffect
  split
  · contradiction
  · rfl

theorem setLabelEffect_granted (hn : s.ownerRefusal h d.frame = none) :
    setLabelEffect h d s = (s.finish h d .ok).setFrame d.frame { s.frame d.frame with label := d.labelOf } := by
  unfold setLabelEffect
  rw [State.ownerCheck_of_refusal_none hn]
  rfl

theorem setInheritEffect_refused (hr : s.ownerRefusal h d.frame = some r) :
    setInheritEffect h d s = s.finish h d r := by
  obtain ⟨rfl, hne⟩ := State.ownerCheck_of_refusal hr
  unfold setInheritEffect
  split
  · contradiction
  · rfl

theorem setInheritEffect_granted (hn : s.ownerRefusal h d.frame = none) :
    setInheritEffect h d s =
      (s.finish h d .ok).setFrame d.frame { s.frame d.frame with inheritFlag := d.inheritFlag } := by
  unfold setInheritEffect
  rw [State.ownerCheck_of_refusal_none hn]
  rfl

/-! ### QUERY_HOST -/

/-- The host figures under a configuration, taken after the command has left its queue (R41). -/
theorem State.hostFigures_taken {c : Configuration} (hc : s.config = some c) :
    (s.beginTaking h).hostFigures h =
      { owned := s.owned.get h, quota := c.quota.get h, waiting := s.waiting.get h
        members := PerHost.make (fun k => decide ((s.port k).portState = .member))
        freeLength := s.freeList.length, scrubLength := s.scrubQueue.length, load := s.load, frames := c.frames
        grace := c.grace, lifetime := c.lifetime } := by
  have members : (s.beginTaking h).isMember = fun k => decide ((s.port k).portState = .member) :=
    funext (State.beginTaking_isMember s h)
  simp [State.hostFigures, State.quotaOf, State.frameCount, State.graceOf, State.lifetimeOf, members, hc]

/-! ### The statements -/

/-- Settles O6: the cases of R20 one after another, each answered in the taking of the ALLOC itself. -/
theorem allocTaken : Obligations.AllocTaken := by
  intro s h d ht label
  have hm := ht.member
  rw [exec_alloc ht]
  unfold allocEffect
  rw [State.beginTaking_allocCase, State.allocCase]
  simp only [State.waitEntry_isSome_iff]
  split_ifs with hbad hquota hserve hbusy hwait
  · exact congrArg _ (State.finish_taken hm d .badArgument)
  · exact congrArg _ (State.finish_taken hm d .quota)
  · rfl
  · exact congrArg _ (State.finish_taken hm d .busy)
  · rfl
  · exact congrArg _ (State.complete_taken hm d.tag d.code .noFrames (.freeLength s.freeList.length))

/-- Settles O7, from the frames of allocation service and from what it leaves as it was. -/
theorem allocationServed : Obligations.AllocationServed := by
  intro s h tag count label inh hm hr
  refine ⟨_, rfl, State.allocService_frame s h label inh tag count, ?_⟩
  have posted := HostPort.postCompletion_reserved
    (.completion tag codeAlloc .ok (.frames (s.freeList.take count))) hm hr
  rw [HostPort.refreshHirq, HostPort.hirqCondition_of_events (by simp)] at posted
  rw [← posted]
  exact State.allocService_eq s h label inh tag count

/-- Settles O9: without an entry of that tag one answer, with one both completions before the wait list is served. -/
theorem cancelAllocTaken : Obligations.CancelAllocTaken := by
  intro s h d ht
  have hm := ht.member
  rw [exec_cancelAlloc ht]
  refine ⟨fun hn => ?_, fun e he htag hr => ?_⟩
  · rw [cancelAllocEffect_not_found (s := s.beginTaking h) hn, State.finish_taken hm]
  · refine ⟨_, ?_, rfl⟩
    rw [cancelAllocEffect_found (s := s.beginTaking h) he htag, State.cancelled_taken hm hr, ht.code_eq,
      State.beginTaking_waitsAtHead]

/-- Settles O10: both commands ask the same check, and what passes it writes the one field. -/
theorem ownerSetsLabelAndInherit : Obligations.OwnerSetsLabelAndInherit := by
  intro s h d refusal
  have hrefusal : s.ownerRefusal h d.frame = refusal := rfl
  clear_value refusal
  have taken := (State.beginTaking_ownerRefusal s h d.frame).trans hrefusal
  refine ⟨fun ht => ?_, fun ht => ?_⟩
  · rw [exec_setLabel ht]
    cases refusal with
    | some r => rw [setLabelEffect_refused taken, State.finish_taken ht.member]
    | none =>
      rw [setLabelEffect_granted taken, State.finish_taken ht.member]
      rfl
  · rw [exec_setInherit ht]
    cases refusal with
    | some r => rw [setInheritEffect_refused taken, State.finish_taken ht.member]
    | none =>
      rw [setInheritEffect_granted taken, State.finish_taken ht.member]
      rfl

/-- Settles O11: the completion carries what stands at the taking, and the taking changes none of it. -/
theorem queriesReport : Obligations.QueriesReport := by
  intro s h d
  refine ⟨fun ht => ?_, fun c hc ht => ?_⟩
  · rw [exec_queryFrame ht]
    unfold queryFrameEffect
    rw [State.beginTaking_frameCount]
    split_ifs with hbad
    · rw [State.finish_taken ht.member]
    · rw [State.complete_taken ht.member]
      rfl
  · rw [exec_queryHost ht]
    unfold queryHostEffect
    rw [State.hostFigures_taken hc, State.complete_taken ht.member]
    rfl

end Sys2Proof.Machine
end

section
/-! SUPPORT. What the owner's commands of Chapter 3 (GRANT, REVOKE, FREE) check and what each makes of a state that passes
its checks (R53 to R57, R63 to R65). -/

namespace Sys2Proof.Machine

/-! ### A second write at one key -/

section

variable {α : Type} (d : α) (t : Table α) (k : Nat)

theorem Table.insert_insert (v w : α) : Table.insert (Table.insert t k v) k w = Table.insert t k w := by
  induction t with
  | nil => simp [Table.insert]
  | cons e rest ih =>
    obtain ⟨j, x⟩ := e
    simp only [Table.insert]
    split_ifs with hlt heq
    · simp [Table.insert]
    · simp [Table.insert]
    · simp [Table.insert, hlt, heq, ih]

theorem Table.erase_insert (v : α) : Table.erase (Table.insert t k v) k = Table.erase t k := by
  induction t with
  | nil => simp [Table.insert, Table.erase]
  | cons e rest ih =>
    obtain ⟨j, x⟩ := e
    simp only [Table.insert]
    split_ifs with hlt heq
    · simp [Table.erase]
    · simp [Table.erase, heq]
    · simp only [Table.erase] at ih
      simp only [Table.erase, List.filter_cons, ih]

/-- The first of two writes at one key leaves no trace. A first write of the unlisted value is left
out: in a table that is not canonical it gives up the entry's place. -/
theorem Table.set_set [DecidableEq α] {v : α} (hv : v ≠ d) (w : α) :
    Table.set d (Table.set d t k v) k w = Table.set d t k w := by
  simp only [Table.set, if_neg hv, Table.erase_insert, Table.insert_insert]

end

theorem State.setFrame_setFrame (s : State) (f : Nat) {v : FrameRecord} (hv : v ≠ FrameRecord.initial)
    (w : FrameRecord) : (s.setFrame f v).setFrame f w = s.setFrame f w := by
  simp only [State.setFrame, Table.set_set _ _ _ hv]

theorem State.setFrame_setPort (s : State) (k : HostId) (p : HostPort) (f : Nat) (r : FrameRecord) :
    (s.setPort k p).setFrame f r = (s.setFrame f r).setPort k p := rfl

/-! ### Commands that a check can refuse -/

/-- What a check refuses a command with: nothing where it answers OK. -/
def Result.refusal : Result → Option Result
  | .ok => none
  | r => some r

/-- The end of a command whose check is made: `passed` where the check answers OK, and otherwise the completion with the
refusal alone. -/
def State.unlessRefused (s : State) (h : HostId) (d : Desc) (check : Result) (passed : State) : State :=
  match check with
  | .ok => passed
  | r => s.finish h d r

variable {s : State} {h g : HostId} {d : Desc}

theorem State.unlessRefused_of_refusal {check r : Result} (hr : check.refusal = some r) (passed : State) :
    s.unlessRefused h d check passed = s.finish h d r := by
  cases check <;> cases hr <;> rfl

theorem State.unlessRefused_ok (passed : State) : s.unlessRefused h d .ok passed = passed := rfl

theorem Desc.modeLegal_of_le (hm : d.mode ≤ 1) : d.modeLegal = true := by
  simpa [Desc.modeLegal] using hm

theorem State.isMember_iff (s : State) (g : HostId) : s.isMember g = true ↔ (s.port g).portState = .member := by
  simp [State.isMember]

theorem State.isMember_eq_false_iff (s : State) (g : HostId) :
    s.isMember g = false ↔ (s.port g).portState ≠ .member := by simp [State.isMember]

theorem State.graceOf_eq {c : Configuration} (hc : s.config = some c) (time : Nat) :
    s.graceOf time = if time = 0 then c.grace else time := by
  simp [State.graceOf, hc]

/-! ### GRANT -/

variable {level : Level}

/-- A GRANT, which never names NONE, asks for less than what is held in one case alone (R53). -/
theorem Level.code_lt_iff (hl : level ≠ .none) (held : Level) :
    level.code < held.code ↔ level = .read ∧ held = .rw := by
  cases level <;> cases held <;> simp_all [Level.code]

/-- What a GRANT that passes its checks does: nothing more at an equal level, else the raise with its notice (R54). -/
def State.grantPassed (s : State) (h : HostId) (d : Desc) (g : HostId) (level : Level) : State :=
  if (s.frame d.frame).access.get g = level then s.finish h d .ok
  else
    ((s.setFrame d.frame { s.frame d.frame with access := (s.frame d.frame).access.set g level }).notify g
      (.granted d.frame h level (s.frame d.frame).label)).finish h d .ok

theorem grantEffect_of_legal (hf : d.frame < s.frameCount) (hg : hostOfNat d.host = some g)
    (hlevel : levelOfNat d.level = some level) (hl : level ≠ .none) :
    grantEffect h d s = s.unlessRefused h d (s.grantCheck h d.frame g level) (s.grantPassed h d g level) := by
  have legal : ¬ (s.frameCount ≤ d.frame ∨ level = .none) := fun x => x.elim (Nat.not_le.mpr hf) hl
  simp only [grantEffect, hg, hlevel, if_neg legal]
  rfl

theorem State.grantPassed_equal (hequal : (s.frame d.frame).access.get g = level) :
    s.grantPassed h d g level = s.finish h d .ok := if_pos hequal

/-- The raise and its notice meet the taking's own completion in no part, since the grantee is another host. -/
theorem State.grantPassed_raised (hm : (s.port h).portState = .member) (hne : g ≠ h)
    (hlevel : (s.frame d.frame).access.get g ≠ level) :
    (s.beginTaking h).grantPassed h d g level =
      ((s.replied h d .ok).setFrame d.frame
          { s.frame d.frame with access := (s.frame d.frame).access.set g level }).setPort g
        ((s.port g).postNotice (.granted d.frame h level (s.frame d.frame).label)) := by
  have port : (s.replied h d .ok).port g = s.port g := PerHost.get_set_ne _ _ hne
  rw [State.grantPassed, State.beginTaking_frame, if_neg hlevel, State.finish, State.complete_notify _ _ _ _ hne,
    State.complete_setFrame, ← State.finish, State.finish_taken hm, State.notify_eq, State.setFrame_port, port]

/-- Settles O12: R53's checks in order, then R54's comparison of the levels. -/
theorem grantTaken : Obligations.GrantTaken := by
  intro s h g d level ht hf hg hlevel hl
  have hm := ht.member
  rw [exec_grant ht, grantEffect_of_legal (s := s.beginTaking h) hf hg hlevel hl]
  simp only [State.grantCheck, State.beginTaking_ownerLeaving, State.beginTaking_frame, State.beginTaking_isMember,
    State.beginTaking_recallOf, State.isMember_eq_false_iff, Level.code_lt_iff hl, Option.isSome_iff_ne_none]
  split_ifs with hleaving howner hstate hself habsent hbusy hlower hequal
  · exact congrArg _ (State.finish_taken hm d .ownerLeaving)
  · exact congrArg _ (State.finish_taken hm d .notOwner)
  · exact congrArg _ (State.finish_taken hm d .wrongState)
  · exact congrArg _ (State.finish_taken hm d .badArgument)
  · exact congrArg _ (State.finish_taken hm d .hostAbsent)
  · exact congrArg _ (State.finish_taken hm d .busy)
  · exact congrArg _ (State.finish_taken hm d .wrongState)
  · rw [State.unlessRefused_ok, State.grantPassed_equal (s := s.beginTaking h) hequal, State.finish_taken hm]
  · rw [State.unlessRefused_ok, State.grantPassed_raised hm hself hequal]

/-! ### REVOKE -/

/-- The FORCED form of the REVOKE record: its target is closed at once (R57). -/
theorem State.revokeRecord_forced (hmode : d.mode = 1) :
    s.revokeRecord h d g =
      ⟨d.frame, .revoke, h, d.tag, true, (PerHost.all none).set g (some .closing), none⟩ := by
  simp [State.revokeRecord, Desc.isForced, hmode]

/-- The GRACEFUL form of the REVOKE record: its target has notice and a deadline (R51, R57). -/
theorem State.revokeRecord_graceful {c : Configuration} (hmode : d.mode = 0) (hmember : (s.port g).portState = .member)
    (hc : s.config = some c) :
    s.revokeRecord h d g =
      ⟨d.frame, .revoke, h, d.tag, false, (PerHost.all none).set g (some .notice),
        some (s.tick + BitVec.ofNat 32 (if d.time = 0 then c.grace else d.time))⟩ := by
  simp [State.revokeRecord, Desc.isForced, hmode, (s.isMember_iff g).mpr hmember, deadlineAfter, State.graceOf_eq hc]

/-- What a REVOKE that passes its checks does (R56, R57). -/
def State.revokePassed (s : State) (h : HostId) (d : Desc) (g : HostId) : State :=
  match s.recallOf d.frame g with
  | some id =>
    match s.record id with
    | some r =>
      if r.targets.get g = some .notice ∧ d.isForced then (s.upgradeRecord id).finish h d .ok
      else s.finish h d .busy
    | none => s.finish h d .busy
  | none =>
    match s.freeRecordId with
    | some id => s.openRecord id (s.revokeRecord h d g)
    | none => s.finish h d .noRecord

theorem revokeEffect_of_legal (hf : d.frame < s.frameCount) (hg : hostOfNat d.host = some g) (hmode : d.mode ≤ 1) :
    revokeEffect h d s = s.unlessRefused h d (s.revokeCheck h d.frame g) (s.revokePassed h d g) := by
  have legal : ¬ (s.frameCount ≤ d.frame ∨ d.modeLegal = false) := by
    simp [Desc.modeLegal_of_le hmode, hf]
  simp only [revokeEffect, hg, if_neg legal]
  rfl

/-- R56: a target in NOTICE is upgraded by force, and every other case of a record that stands is BUSY. -/
theorem State.revokePassed_recalled {id : Nat} {r : RecallRecord} {p : Phase} (hr : s.Recalled d.frame g id r p) :
    s.revokePassed h d g =
      if p = .notice ∧ d.isForced then (s.upgradeRecord id).finish h d .ok else s.finish h d .busy := by
  obtain ⟨hid, hrec, htarget⟩ := hr
  simp only [State.revokePassed, hid, hrec, htarget, Option.some.injEq]

/-- R57: without a record that stands, a new one is created if an id is free. -/
theorem State.revokePassed_unrecalled (hn : s.recallOf d.frame g = none) :
    s.revokePassed h d g =
      s.freeRecordId.elim (s.finish h d .noRecord) (fun id => s.openRecord id (s.revokeRecord h d g)) := by
  simp only [State.revokePassed, hn]
  cases s.freeRecordId <;> rfl

/-- An upgrade touches no port and reads none, so a completion may come before it. -/
theorem State.upgradeRecord_finish (id : Nat) (r : Result) :
    (s.upgradeRecord id).finish h d r = (s.finish h d r).upgradeRecord id := by
  have record : (s.finish h d r).record id = s.record id := rfl
  unfold State.upgradeRecord
  rw [record]
  cases s.record id <;> rfl

/-- The check of REVOKE, put as the refusal that R55's table gives. -/
theorem State.revokeCheck_refusal (f : Nat) :
    (s.revokeCheck h f g).refusal =
      if s.ownerLeaving f then some .ownerLeaving
      else if (s.frame f).owner ≠ some h then some .notOwner
      else if (s.frame f).state ≠ .held then some .wrongState
      else if g = h then some .badArgument
      else if (s.frame f).access.get g = .none then some .noAccess
      else if (s.port g).portState = .leaving then some .hostAbsent
      else if (s.frame f).offer ≠ none then some .busy
      else none := by
  simp only [State.revokeCheck, State.isLeaving, decide_eq_true_eq, apply_ite Result.refusal]
  rfl

theorem State.beginTaking_revokeCheck (f : Nat) : (s.beginTaking h).revokeCheck h f g = s.revokeCheck h f g := by
  simp only [State.revokeCheck, State.beginTaking_ownerLeaving, State.beginTaking_frame, State.beginTaking_isLeaving]
  rfl

/-- Settles O15: the refusal, or the case of R56 or R57 that the record search and the mode select. -/
theorem revokeTaken : Obligations.RevokeTaken := by
  intro s h g d ht hf hg hmode
  have hm := ht.member
  rw [exec_revoke ht, revokeEffect_of_legal (s := s.beginTaking h) hf hg hmode, State.beginTaking_revokeCheck]
  refine ⟨fun r hr => ?_, fun hleaving howner hstate hself haccess hmember hoffer => ?_⟩
  · rw [← State.revokeCheck_refusal] at hr
    rw [State.unlessRefused_of_refusal hr, State.finish_taken hm]
  · have passes : s.revokeCheck h d.frame g = .ok := by
      simp [State.revokeCheck, State.isLeaving, hleaving, howner, hstate, hself, haccess, hmember, hoffer]
    rw [passes, State.unlessRefused_ok]
    refine ⟨fun id r p hr hp => ?_, fun id r hr hforced => ?_, fun hn hfree => ?_, fun id hn hfree hforced => ?_,
      fun id c hn hfree hgraceful hc => ?_⟩
    · have spared : ¬ (p = .notice ∧ d.isForced) := by
        rintro ⟨rfl, hforced⟩
        simp_all [Desc.isForced]
      rw [State.revokePassed_recalled (s := s.beginTaking h) hr, if_neg spared, State.finish_taken hm]
    · rw [State.revokePassed_recalled (s := s.beginTaking h) hr, if_pos ⟨rfl, by simp [Desc.isForced, hforced]⟩,
        State.upgradeRecord_finish, State.finish_taken hm]
    · rw [State.revokePassed_unrecalled (s := s.beginTaking h) hn, State.beginTaking_freeRecordId, hfree,
        Option.elim_none, State.finish_taken hm]
    · rw [State.revokePassed_unrecalled (s := s.beginTaking h) hn, State.beginTaking_freeRecordId, hfree,
        Option.elim_some, State.revokeRecord_forced hforced]
    · rw [State.revokePassed_unrecalled (s := s.beginTaking h) hn, State.beginTaking_freeRecordId, hfree,
        Option.elim_some, State.revokeRecord_graceful (s := s.beginTaking h) hgraceful
          ((State.beginTaking_portState s h g).trans hmember) hc, State.beginTaking_tick]

/-! ### FREE -/

/-- The withdrawal of the offer changes no access level, so the targets of the record can be read after it (R64, R65). -/
@[simp] theorem State.withdrawForFree_access (s : State) (f j : Nat) :
    ((s.withdrawForFree f).frame j).access = (s.frame j).access := by
  unfold State.withdrawForFree
  split
  · split
    · simp only [State.notify_eq, State.removeOffer, State.updFrame_eq, State.setPort_frame, State.setFrame_frame,
        State.setOfferSlot_frame]
      split_ifs with hj
      · rw [hj]
      · rfl
    · rfl
  · rfl

@[simp] theorem State.withdrawForFree_isMember (s : State) (f : Nat) (k : HostId) :
    (s.withdrawForFree f).isMember k = s.isMember k := by
  unfold State.withdrawForFree
  split
  · split
    · simp only [State.isMember, State.notify_eq, State.removeOffer, State.updFrame_eq, State.setPort_port,
        State.setFrame_port, State.setOfferSlot_port]
      split_ifs with hk
      · rw [HostPort.postNotice_portState, hk]
      · rfl
    · rfl
  · rfl

theorem State.withdrawForFree_of_no_offer {f : Nat} (hno : (s.frame f).offer = none) : s.withdrawForFree f = s := by
  simp only [State.withdrawForFree, hno]

/-- R64, R71: the open offer on the frame leaves its slot and the frame, and its recipient is told. -/
theorem State.withdrawForFree_of_offer {f i : Nat} {serial : BitVec 8} {o : Offer}
    (hoffer : (s.frame f).offer = some ⟨i, serial⟩) (hslot : s.offerSlot i = ⟨serial, some o⟩) (hf : o.frame = f) :
    s.withdrawForFree f =
      ((s.setOfferSlot i ⟨serial + 1, none⟩).setFrame f { s.frame f with offer := none }).setPort o.recipient
        ((s.port o.recipient).postNotice (.offerClosed ⟨i, serial⟩ f .withdrawn)) := by
  subst hf
  simp only [State.withdrawForFree, hoffer, hslot]
  simp [State.removeOffer, State.notify_eq, hslot]

/-- The record of a FREE depends on the access to the frame, the port states, the tick and the configuration alone. -/
theorem State.freeRecord_congr {t : State} (haccess : (t.frame d.frame).access = (s.frame d.frame).access)
    (hmember : ∀ k, t.isMember k = s.isMember k) (htick : t.tick = s.tick) (hconfig : t.config = s.config) :
    t.freeRecord h d = s.freeRecord h d := by
  have phases : t.freePhase h d = s.freePhase h d := by
    funext k
    simp only [State.freePhase, haccess, hmember]
  simp only [State.freeRecord, State.graceOf, phases, htick, hconfig]

/-- Neither the taking nor the withdrawal of the offer changes which record a FREE creates. -/
theorem State.freeRecord_withdrawn (s : State) (f : Nat) :
    ((s.beginTaking h).withdrawForFree f).freeRecord h d = s.freeRecord h d := by
  have same := State.MapOnly.withdrawForFree (s.beginTaking h) f
  exact State.freeRecord_congr (by simp) (by simp) same.tick same.config

/-- R65: a target other than the owner's has notice in a GRACEFUL record when its host is MEMBER. -/
theorem State.freePhase_other {k : HostId} (hmode : d.mode ≤ 1) (hk : k ≠ h) :
    s.freePhase h d k =
      if (s.frame d.frame).access.get k = .none then none
      else if d.mode = 0 ∧ (s.port k).portState = .member then some .notice
      else some .closing := by
  have graceful : d.isForced = false ↔ d.mode = 0 := by
    simp [Desc.isForced]
    omega
  simp only [State.freePhase]
  split_ifs <;> simp_all [State.isMember_iff]

/-- R65: the owner's target has notice when that of another host has. -/
theorem State.freePhase_owner (haccess : (s.frame d.frame).access.get h = .rw) :
    s.freePhase h d h =
      if ∃ k, k ≠ h ∧ s.freePhase h d k = some .notice then some .notice else some .closing := by
  have notice : ∀ k, (k ≠ h ∧ s.freePhase h d k = some .notice) ↔
      (decide (k ≠ h) && decide ((s.frame d.frame).access.get k ≠ .none) && !d.isForced && s.isMember k) = true := by
    intro k
    simp only [State.freePhase]
    split_ifs <;> simp_all
  simp only [notice]
  simp [State.freePhase, haccess]

@[simp] theorem State.freeRecord_target (k : HostId) : (s.freeRecord h d).targets.get k = s.freePhase h d k :=
  PerHost.get_make _ k

/-- R51: the record has a deadline exactly when a target has notice. -/
theorem State.freeRecord_deadline {c : Configuration} (hc : s.config = some c) :
    (s.freeRecord h d).deadline =
      if ∃ k, (s.freeRecord h d).targets.get k = some .notice then
        some (s.tick + BitVec.ofNat 32 (if d.time = 0 then c.grace else d.time))
      else none := by
  simp [State.freeRecord, RecallRecord.someNotice, deadlineAfter, State.graceOf_eq hc]

/-- The check of FREE with legal fields, put as the refusal that R63's table gives. -/
theorem State.freeCheck_refusal (hf : d.frame < s.frameCount) (hmode : d.mode ≤ 1) :
    (s.freeCheck h d).refusal =
      if s.ownerLeaving d.frame then some .ownerLeaving
      else if (s.frame d.frame).owner ≠ some h then some .notOwner
      else if (s.frame d.frame).state ≠ .held then some .wrongState
      else if (s.frame d.frame).recallSet ≠ [] then some .busy
      else if s.freeRecordId = none then some .noRecord
      else none := by
  have legal : ¬ (s.frameCount ≤ d.frame ∨ d.modeLegal = false) := by
    simp [Desc.modeLegal_of_le hmode, hf]
  simp only [State.freeCheck, if_neg legal, apply_ite Result.refusal]
  rfl

theorem State.beginTaking_freeCheck : (s.beginTaking h).freeCheck h d = s.freeCheck h d := by
  simp only [State.freeCheck, State.beginTaking_frameCount, State.beginTaking_ownerLeaving, State.beginTaking_frame,
    State.beginTaking_freeRecordId]
  rfl

/-- What a FREE that passes its checks does: the open offer is withdrawn first, then the frame is FREEING and has its
record (R64, R65). -/
def State.freePassed (s : State) (h : HostId) (d : Desc) : State :=
  match s.freeRecordId with
  | some id =>
    ((s.withdrawForFree d.frame).updFrame d.frame (fun fr => { fr with state := .freeing })).openRecord id
      ((s.withdrawForFree d.frame).freeRecord h d)
  | none => s.finish h d .noRecord

theorem freeEffect_eq : freeEffect h d s = s.unlessRefused h d (s.freeCheck h d) (s.freePassed h d) := rfl

theorem State.freePassed_of_freeRecordId {id : Nat} (hid : s.freeRecordId = some id) :
    s.freePassed h d =
      ((s.withdrawForFree d.frame).updFrame d.frame (fun fr => { fr with state := .freeing })).openRecord id
        ((s.withdrawForFree d.frame).freeRecord h d) := by
  simp only [State.freePassed, hid]

/-- Settles O17: the refusal, or the withdrawn offer, the frame made FREEING and the record with its targets. -/
theorem freeTaken : Obligations.FreeTaken := by
  intro s h d c ht hf hmode hc
  rw [exec_free ht, freeEffect_eq, State.beginTaking_freeCheck]
  refine ⟨fun r hr => ?_, fun id hleaving howner haccess hstate hset hid => ?_⟩
  · rw [← State.freeCheck_refusal hf hmode] at hr
    rw [State.unlessRefused_of_refusal hr, State.finish_taken ht.member]
  · have passes : s.freeCheck h d = .ok := by
      simp [State.freeCheck, Desc.modeLegal_of_le hmode, hf, hleaving, howner, hstate, hset, hid]
    rw [passes, State.unlessRefused_ok, State.freePassed_of_freeRecordId (s := s.beginTaking h) hid,
      State.freeRecord_withdrawn]
    refine ⟨s.freeRecord h d, _, rfl, rfl, rfl, rfl, rfl, by simp [State.freeRecord, Desc.isForced], fun k hk => ?_, ?_,
      State.freeRecord_deadline hc, fun hno => ?_, fun i serial o hoffer hslot hframe hother => ?_⟩
    · rw [State.freeRecord_target, State.freePhase_other hmode hk]
    · simp only [State.freeRecord_target]
      exact State.freePhase_owner haccess
    · rw [State.withdrawForFree_of_no_offer (s := s.beginTaking h) hno]
      rfl
    · have owned : ({ s.frame d.frame with offer := none } : FrameRecord) ≠ FrameRecord.initial := by
        intro heq
        have := congrArg FrameRecord.state heq
        simp [hstate, FrameRecord.initial] at this
      rw [State.withdrawForFree_of_offer (s := s.beginTaking h) hoffer hslot hframe, State.beginTaking_port,
        if_neg hother, State.beginTaking_frame, State.updFrame_eq, State.setPort_frame, State.setFrame_frame, if_pos rfl,
        State.setFrame_setPort, State.setFrame_setFrame _ _ owned]

end Sys2Proof.Machine
end

section
/-! SUPPORT. What the commands of Chapter 4 (OFFER, ACCEPT, DECLINE, WITHDRAW) check and what each makes of a state that
passes its checks (R70 to R81). -/

namespace Sys2Proof.Machine

variable {s : State} {h g : HostId} {d : Desc}

/-! ### Open offers -/

/-- R70: a handle names an open offer only while its serial is the slot's. -/
theorem State.offerSlot_of_openOffer {hd : Handle} {o : Offer} (ho : s.openOffer hd = some o) :
    s.offerSlot hd.slot = ⟨hd.serial, some o⟩ := by
  unfold State.openOffer at ho
  split at ho
  · next named =>
    obtain ⟨-, hserial⟩ := named
    rw [← hserial, ← ho]
  · cases ho

/-- R71: the offer leaves its slot, whose serial advances, and its frame. -/
theorem State.removeOffer_eq (s : State) (i : Nat) (o : Offer) :
    s.removeOffer i o =
      (s.setOfferSlot i ⟨(s.offerSlot i).serial + 1, none⟩).setFrame o.frame
        { s.frame o.frame with offer := none } := rfl

/-- An answer at once touches no port but its host's. -/
theorem State.answered_port_ne (hne : g ≠ h) (e : Event) : (s.answered h e).port g = s.port g :=
  PerHost.get_set_ne _ _ hne

/-! ### DECLINE and WITHDRAW -/

/-- The one shape of DECLINE and WITHDRAW: only `party` of the open offer may close it, and `other` is told (R80, R81). -/
def State.closeByParty (s : State) (h : HostId) (d : Desc) (party other : Offer → HostId) (reason : CloseReason) :
    State :=
  match s.openOffer d.handle with
  | none => s.finish h d .gone
  | some o =>
    if party o ≠ h then s.finish h d .badArgument
    else
      ((s.removeOffer d.handle.slot o).notify (other o) (.offerClosed d.handle o.frame reason)).finish h d .ok

theorem declineEffect_eq : declineEffect h d s = s.closeByParty h d Offer.recipient Offer.giver .declined := rfl

theorem withdrawEffect_eq : withdrawEffect h d s = s.closeByParty h d Offer.giver Offer.recipient .withdrawn := rfl

section

variable {party other : Offer → HostId} {reason : CloseReason} {o : Offer}

theorem State.closeByParty_gone (hm : (s.port h).portState = .member) (hn : s.openOffer d.handle = none) :
    (s.beginTaking h).closeByParty h d party other reason = s.replied h d .gone := by
  simp only [State.closeByParty, State.beginTaking_openOffer, hn, State.finish_taken hm]

theorem State.closeByParty_other (hm : (s.port h).portState = .member) (ho : s.openOffer d.handle = some o)
    (hother : party o ≠ h) :
    (s.beginTaking h).closeByParty h d party other reason = s.replied h d .badArgument := by
  simp only [State.closeByParty, State.beginTaking_openOffer, ho, if_pos hother, State.finish_taken hm]

/-- The closing and its notice meet the taking's own completion in no part, since the other party is another host. -/
theorem State.closeByParty_closed (hm : (s.port h).portState = .member) (ho : s.openOffer d.handle = some o)
    (hparty : party o = h) (hne : other o ≠ h) :
    (s.beginTaking h).closeByParty h d party other reason =
      (((s.replied h d .ok).setOfferSlot d.handle.slot ⟨d.handle.serial + 1, none⟩).setFrame o.frame
          { s.frame o.frame with offer := none }).setPort (other o)
        ((s.port (other o)).postNotice (.offerClosed d.handle o.frame reason)) := by
  have allowed : ¬ party o ≠ h := not_not_intro hparty
  have slot : ((s.beginTaking h).offerSlot d.handle.slot).serial = d.handle.serial := by
    rw [State.beginTaking_offerSlot, State.offerSlot_of_openOffer ho]
  have told : (s.replied h d .ok).port (other o) = s.port (other o) := State.answered_port_ne hne _
  simp only [State.closeByParty, State.beginTaking_openOffer, ho, if_neg allowed]
  rw [State.finish, State.complete_notify _ _ _ _ hne, State.removeOffer_eq, slot, State.complete_setFrame,
    State.complete_setOfferSlot, ← State.finish, State.finish_taken hm, State.notify_eq, State.setFrame_port,
    State.setOfferSlot_port, told, State.beginTaking_frame]

end

/-- Settles O22: both commands are one closing by a party, with the parties exchanged. -/
theorem offerClosedByAParty : Obligations.OfferClosedByAParty := by
  intro s h d
  refine ⟨fun ht hn => ?_, fun ht hn => ?_, fun o ho => ⟨fun ht hother => ?_, fun ht hother => ?_,
    fun ht hparty hne => ?_, fun ht hparty hne => ?_⟩⟩
  · rw [exec_decline ht, declineEffect_eq, State.closeByParty_gone ht.member hn]
  · rw [exec_withdraw ht, withdrawEffect_eq, State.closeByParty_gone ht.member hn]
  · rw [exec_decline ht, declineEffect_eq, State.closeByParty_other ht.member ho hother]
  · rw [exec_withdraw ht, withdrawEffect_eq, State.closeByParty_other ht.member ho hother]
  · rw [exec_decline ht, declineEffect_eq, State.closeByParty_closed ht.member ho hparty hne]
  · rw [exec_withdraw ht, withdrawEffect_eq, State.closeByParty_closed ht.member ho hparty hne]

/-! ### OFFER -/

variable {residual : Level}

theorem State.lifetimeOf_eq {c : Configuration} (hc : s.config = some c) (time : Nat) :
    s.lifetimeOf time = if time = 0 then c.lifetime else time := by
  simp [State.lifetimeOf, hc]

/-- R165: of a deadline just set, the ticks remaining are the lifetime in the counter's 32 bits. -/
theorem ticksRemaining_deadlineAfter (counter : BitVec 32) (ticks : Nat) :
    ticksRemaining counter (deadlineAfter counter ticks) = ticks % 2 ^ 32 := by
  rw [ticksRemaining, deadlineAfter, BitVec.add_comm, BitVec.add_sub_cancel, BitVec.toNat_ofNat]

/-- What an OFFER that passes its checks does (R73). -/
def State.offerPassed (s : State) (h : HostId) (d : Desc) (g : HostId) (residual : Level) : State :=
  match s.freeOfferSlot with
  | some i => s.openOfferIn h d g residual i
  | none => s.finish h d .noRecord

theorem offerEffect_of_legal (hf : d.frame < s.frameCount) (hg : hostOfNat d.host = some g)
    (hresidual : levelOfNat d.level = some residual) :
    offerEffect h d s = s.unlessRefused h d (s.offerCheck h d.frame g) (s.offerPassed h d g residual) := by
  simp only [offerEffect, hg, hresidual, if_neg (Nat.not_le.mpr hf)]
  rfl

theorem State.beginTaking_offerCheck (f : Nat) : (s.beginTaking h).offerCheck h f g = s.offerCheck h f g := by
  simp only [State.offerCheck, State.beginTaking_ownerLeaving, State.beginTaking_frame, State.beginTaking_isMember,
    State.beginTaking_freeOfferSlot]
  rfl

/-- The offer and its notice meet the taking's own completion in no part, since the recipient is another host. -/
theorem State.openOfferIn_taken (hm : (s.port h).portState = .member) (hne : g ≠ h) (i : Nat) :
    (s.beginTaking h).openOfferIn h d g residual i =
      (((s.answered h (d.reply .ok (.handle ⟨i, (s.offerSlot i).serial⟩))).setOfferSlot i
          ⟨(s.offerSlot i).serial, some ⟨d.frame, h, g, residual,
            s.tick + BitVec.ofNat 32 (s.lifetimeOf d.time)⟩⟩).setFrame d.frame
          { s.frame d.frame with offer := some ⟨i, (s.offerSlot i).serial⟩ }).setPort g
        ((s.port g).postNotice (.offerReceived ⟨i, (s.offerSlot i).serial⟩ d.frame h residual (s.frame d.frame).label
          (s.lifetimeOf d.time % 2 ^ 32))) := by
  unfold State.openOfferIn
  simp only [State.updFrame_eq, State.setFrame_frame, if_pos, State.setFrame_tick, State.setOfferSlot_tick,
    State.setOfferSlot_frame, State.beginTaking_tick, State.beginTaking_frame, State.beginTaking_offerSlot,
    State.beginTaking_lifetimeOf, ticksRemaining_deadlineAfter]
  rw [State.complete_notify _ _ _ _ hne, State.complete_setFrame, State.complete_setOfferSlot,
    State.complete_taken hm, State.notify_eq, State.setFrame_port, State.setOfferSlot_port, State.answered_port_ne hne]
  rfl

/-- Settles O18: R72's checks in order, then the offer in the slot found. -/
theorem offerTaken : Obligations.OfferTaken := by
  intro s h g d residual c ht hf hg hresidual hc
  have hm := ht.member
  rw [exec_offer ht, offerEffect_of_legal (s := s.beginTaking h) hf hg hresidual, State.beginTaking_offerCheck]
  simp only [State.offerCheck, State.isMember_eq_false_iff, ← State.lifetimeOf_eq hc]
  split_ifs with hleaving howner hstate hself habsent hbusy hfull
  · exact congrArg _ (State.finish_taken hm d .ownerLeaving)
  · exact congrArg _ (State.finish_taken hm d .notOwner)
  · exact congrArg _ (State.finish_taken hm d .wrongState)
  · exact congrArg _ (State.finish_taken hm d .badArgument)
  · exact congrArg _ (State.finish_taken hm d .hostAbsent)
  · exact congrArg _ (State.finish_taken hm d .busy)
  · simp only [hfull]
    exact congrArg _ (State.finish_taken hm d .noRecord)
  · obtain ⟨i, hi⟩ := Option.ne_none_iff_exists'.mp hfull
    simp only [hi, State.unlessRefused_ok, State.offerPassed, State.beginTaking_freeOfferSlot,
      State.openOfferIn_taken hm hself]

/-! ### ACCEPT: the checks -/

variable {o : Offer}

/-- The state in which an ACCEPT has moved ownership and told the giver and the other holders (R76, R79), with neither
completion nor record yet. -/
def State.handOver (s : State) (h : HostId) (d : Desc) (o : Offer) : State :=
  ((s.moveOwnership h d.handle.slot o).notify o.giver (.offerClosed d.handle o.frame .accepted)).notifyAll
    ((s.frame o.frame).holders (fun k => decide (k = h ∨ k = o.giver))) (.ownerChanged o.frame h .offer)

/-- What an ACCEPT that passes its checks does: the move, then the completion or the HANDOVER record (R76 to R79). -/
def State.acceptPassed (s : State) (h : HostId) (d : Desc) (o : Offer) : State :=
  if o.residual = .none then
    match (s.handOver h d o).freeRecordId with
    | some id => (s.handOver h d o).openRecord id (handoverRecord h d o)
    | none => s.handOver h d o
  else (s.handOver h d o).finish h d .ok

theorem acceptEffect_gone (hn : s.openOffer d.handle = none) : acceptEffect h d s = s.finish h d .gone := by
  simp only [acceptEffect, hn]

theorem acceptEffect_of_openOffer (ho : s.openOffer d.handle = some o) :
    acceptEffect h d s = s.unlessRefused h d (s.acceptCheck h o) (s.acceptPassed h d o) := by
  simp only [acceptEffect, ho]
  rfl

theorem State.beginTaking_acceptCheck : (s.beginTaking h).acceptCheck h o = s.acceptCheck h o := rfl

/-- What a taken ACCEPT whose handle names an open offer answers. -/
theorem exec_accept_of_openOffer (ht : s.Takes h d codeAccept) (ho : s.openOffer d.handle = some o) :
    exec .accept s =
      .next ((s.beginTaking h).unlessRefused h d (s.acceptCheck h o) ((s.beginTaking h).acceptPassed h d o)) := by
  rw [exec_accept ht, acceptEffect_of_openOffer (s := s.beginTaking h) ho, State.beginTaking_acceptCheck]

theorem exec_accept_refused {r : Result} (ht : s.Takes h d codeAccept) (ho : s.openOffer d.handle = some o)
    (hr : (s.acceptCheck h o).refusal = some r) : exec .accept s = .next (s.replied h d r) := by
  rw [exec_accept_of_openOffer ht ho, State.unlessRefused_of_refusal hr, State.finish_taken ht.member]

/-- The check of ACCEPT on an open offer, put as the refusal that R75's table gives. -/
theorem State.acceptCheck_refusal :
    (s.acceptCheck h o).refusal =
      if o.recipient ≠ h then some .badArgument
      else if s.quotaOf h < s.owned.get h + s.waiting.get h + 1 then some .quota
      else if o.residual = .none ∧ s.freeRecordId = none then some .noRecord
      else none := by
  simp only [State.acceptCheck, apply_ite Result.refusal]
  rfl

/-- Settles O20: no open offer, or the first refusal of R75's table. -/
theorem acceptRefused : Obligations.AcceptRefused := by
  intro s h d ht
  refine ⟨fun hn => ?_, fun o ho => ⟨fun hother => ?_, fun hrecipient hquota => ?_,
    fun hrecipient hroom hresidual hfull => ?_⟩⟩
  · rw [exec_accept ht, acceptEffect_gone (s := s.beginTaking h) hn, State.finish_taken ht.member]
  · apply exec_accept_refused ht ho
    rw [State.acceptCheck_refusal, if_pos hother]
  · apply exec_accept_refused ht ho
    rw [State.acceptCheck_refusal, if_neg (not_not_intro hrecipient), if_pos hquota]
  · apply exec_accept_refused ht ho
    rw [State.acceptCheck_refusal, if_neg (not_not_intro hrecipient), if_neg (Nat.not_lt.mpr hroom),
      if_pos ⟨hresidual, hfull⟩]

/-! ### ACCEPT: the move -/

/-- R76: the frame's record once the offer on it is removed and ownership has moved; a residual of NONE leaves the
giver's level (R77, R78). -/
def FrameRecord.handTo (r : FrameRecord) (h : HostId) (o : Offer) : FrameRecord :=
  { r with
    owner := some h, offer := none
    access := (r.access.set o.giver (if o.residual = .none then r.access.get o.giver else o.residual)).set h .rw }

/-- R71, R76: the offer is removed, the frame's record is rewritten, and the owned counts move by one. -/
theorem State.moveOwnership_eq (i : Nat) (hne : o.giver ≠ h) :
    s.moveOwnership h i o =
      { (s.removeOffer i o).setFrame o.frame ((s.frame o.frame).handTo h o) with
        owned := (s.owned.set o.giver (s.owned.get o.giver - 1)).set h (s.owned.get h + 1) } := by
  have access : (if o.residual = .none then (s.frame o.frame).access
      else (s.frame o.frame).access.set o.giver o.residual) =
      (s.frame o.frame).access.set o.giver
        (if o.residual = .none then (s.frame o.frame).access.get o.giver else o.residual) := by
    split_ifs
    · rw [PerHost.set_get]
    · rfl
  have recipient : (s.owned.set o.giver (s.owned.get o.giver - 1)).get h = s.owned.get h :=
    PerHost.get_set_ne _ _ hne.symm
  simp only [State.moveOwnership, State.lowerOwned, State.removeOffer_eq, State.updFrame_eq, State.setFrame_frame,
    if_true, State.setFrame_owned, State.setOfferSlot_owned, access, recipient, FrameRecord.handTo]

/-- The notices of a handover change the ports alone. -/
theorem State.handOver_eq :
    s.handOver h d o = { s.moveOwnership h d.handle.slot o with ports := (s.handOver h d o).ports } :=
  State.notifyAll_frame _ _ _

theorem State.handOver_frame (hne : o.giver ≠ h) (f : Nat) :
    (s.handOver h d o).frame f = if f = o.frame then (s.frame f).handTo h o else s.frame f := by
  have moved : (s.handOver h d o).frame f =
      ((s.removeOffer d.handle.slot o).setFrame o.frame ((s.frame o.frame).handTo h o)).frame f := by
    rw [State.handOver_eq, State.moveOwnership_eq _ hne]
    rfl
  rw [moved, State.setFrame_frame, State.removeOffer_eq, State.setFrame_frame]
  split_ifs with hf
  · rw [hf]
  · rfl

theorem State.handOver_offerSlot (hne : o.giver ≠ h) (i : Nat) :
    (s.handOver h d o).offerSlot i =
      if i = d.handle.slot then ⟨(s.offerSlot i).serial + 1, none⟩ else s.offerSlot i := by
  have moved : (s.handOver h d o).offerSlot i = (s.removeOffer d.handle.slot o).offerSlot i := by
    rw [State.handOver_eq, State.moveOwnership_eq _ hne]
    rfl
  rw [moved, State.removeOffer_eq, State.setFrame_offerSlot, State.setOfferSlot_offerSlot]
  split_ifs with hi
  · rw [hi]
  · rfl

theorem State.handOver_freeRecordId (hne : o.giver ≠ h) : (s.handOver h d o).freeRecordId = s.freeRecordId := by
  rw [State.handOver_eq, State.moveOwnership_eq _ hne]
  rfl

/-- R79: the giver is told that its offer was accepted, every other holder that the owner changed. -/
theorem State.handOver_port (hne : o.giver ≠ h) (k : HostId) :
    (s.handOver h d o).port k =
      if k = h then s.port h
      else if k = o.giver then (s.port k).postNotice (.offerClosed d.handle o.frame .accepted)
      else if (s.frame o.frame).access.get k ≠ .none then (s.port k).postNotice (.ownerChanged o.frame h .offer)
      else s.port k := by
  have moved : (s.moveOwnership h d.handle.slot o).port = s.port := by
    rw [State.moveOwnership_eq _ hne]
    rfl
  rw [State.handOver, State.notifyAll_port _ (FrameRecord.holders_nodup _ _), State.notify_eq, State.setPort_port,
    moved]
  simp only [FrameRecord.mem_holders, decide_eq_false_iff_not, not_or]
  by_cases hk : k = h
  · simp [hk, hne.symm]
  · by_cases hgiver : k = o.giver
    · simp [hgiver, hne]
    · simp [hk, hgiver]

/-- A handover in the taking of its ACCEPT: what changes beside the ports, the frames and the Offer Table. -/
theorem State.handOver_taken (hne : o.giver ≠ h) :
    (s.beginTaking h).handOver h d o =
      { s with
        ports := ((s.beginTaking h).handOver h d o).ports, frames := ((s.beginTaking h).handOver h d o).frames
        offers := ((s.beginTaking h).handOver h d o).offers, cmdPointer := h + 1
        owned := (s.owned.set o.giver (s.owned.get o.giver - 1)).set h (s.owned.get h + 1) } := by
  rw [State.handOver_eq, State.moveOwnership_eq _ hne]
  rfl

/-- The end of a handover in the taking of its ACCEPT: with a residual of NONE the completion is still owed (R78). -/
def State.answerUnlessOwed (s : State) (h : HostId) (d : Desc) (o : Offer) : State :=
  if o.residual = .none then s else s.finish h d .ok

theorem State.answerUnlessOwed_eq :
    s.answerUnlessOwed h d o = { s with ports := (s.answerUnlessOwed h d o).ports } := by
  unfold State.answerUnlessOwed
  split_ifs <;> rfl

/-- The recipient's port when ownership has moved: its command taken, and answered where nothing is owed (R77, R78). -/
theorem State.answerUnlessOwed_port (hm : (s.port h).portState = .member) {t : State}
    (ht : t.port h = (s.beginTaking h).port h) (k : HostId) :
    (t.answerUnlessOwed h d o).port k =
      if k = h then (if o.residual = .none then (s.beginTaking h).port h else (s.replied h d .ok).port h)
      else t.port k := by
  have answered : (t.finish h d .ok).port h = (s.replied h d .ok).port h := by
    rw [← State.finish_taken hm, State.finish_eq, State.finish_eq, State.setPort_port, State.setPort_port, ht]
  unfold State.answerUnlessOwed
  split_ifs with hresidual hk hk
  · rw [hk, ht]
  · rfl
  · rw [hk, answered]
  · rw [State.finish_eq, State.setPort_port, if_neg hk]

theorem State.acceptPassed_residual (hresidual : o.residual ≠ .none) :
    s.acceptPassed h d o = (s.handOver h d o).answerUnlessOwed h d o := by
  rw [State.acceptPassed, State.answerUnlessOwed, if_neg hresidual, if_neg hresidual]

/-- R78: with a residual of NONE the giver's level is withdrawn by the HANDOVER record. -/
theorem State.acceptPassed_none {id : Nat} (hne : o.giver ≠ h) (hresidual : o.residual = .none)
    (hid : s.freeRecordId = some id) :
    s.acceptPassed h d o = ((s.handOver h d o).answerUnlessOwed h d o).openRecord id (handoverRecord h d o) := by
  have free := (State.handOver_freeRecordId (s := s) (d := d) hne).trans hid
  simp only [State.acceptPassed, State.answerUnlessOwed, if_pos hresidual, free]

/-- Settles O21: the handover with its notices, then the completion or the HANDOVER record. -/
theorem acceptMovesOwnership : Obligations.AcceptMovesOwnership := by
  intro s h d o ht ho hrecipient hne hroom
  have hm := ht.member
  have recipient : ((s.beginTaking h).handOver h d o).port h = (s.beginTaking h).port h := by
    rw [State.handOver_port hne, if_pos rfl]
  refine ⟨((s.beginTaking h).handOver h d o).answerUnlessOwed h d o, fun f => ?_, fun k => ?_, fun i => ?_, ?_,
    fun hresidual => ?_, fun id hresidual hid => ?_⟩
  · rw [State.answerUnlessOwed_eq]
    exact State.handOver_frame hne f
  · rw [State.answerUnlessOwed_port hm recipient, State.handOver_port hne]
    by_cases hk : k = h
    · simp only [if_pos hk]
    · simp only [if_neg hk, State.beginTaking_port, State.beginTaking_frame]
  · rw [State.answerUnlessOwed_eq]
    exact State.handOver_offerSlot hne i
  · rw [State.answerUnlessOwed_eq, State.handOver_taken hne]
  · have passes : s.acceptCheck h o = .ok := by
      simp [State.acceptCheck, hrecipient, Nat.not_lt.mpr hroom, hresidual]
    rw [exec_accept_of_openOffer ht ho, passes, State.unlessRefused_ok, State.acceptPassed_residual hresidual]
  · have passes : s.acceptCheck h o = .ok := by
      simp [State.acceptCheck, hrecipient, Nat.not_lt.mpr hroom, hid]
    rw [exec_accept_of_openOffer ht ho, passes, State.unlessRefused_ok,
      State.acceptPassed_none (s := s.beginTaking h) hne hresidual hid]
    rfl

end Sys2Proof.Machine
end

section
/-! SUPPORT. What the commands of Chapter 5 (SET_WINDOW, CLEAR_WINDOW, MAP_SLOT, UNMAP_SLOT) check and what each makes of
the host's Translation Unit (R87 to R94). -/

namespace Sys2Proof.Machine

variable {s : State} {h : HostId} {d : Desc}

/-! ### Addresses in windows -/

theorem Window.holds_iff (w : Window) (a : Nat) :
    w.holds a = true ↔ w.base ≤ a ∧ a < w.base + 65536 * 2 ^ w.sizeCode :=
  decide_eq_true_iff

/-- The bounds that the model compares say what R88 says: some address lies in both windows. The later of the two bases
is such an address. -/
theorem Window.overlaps_iff (v w : Window) :
    v.overlaps w = true ↔ ∃ a, v.holds a = true ∧ w.holds a = true := by
  have hv : 0 < windowBytes v.sizeCode := by unfold windowBytes; positivity
  have hw : 0 < windowBytes w.sizeCode := by unfold windowBytes; positivity
  simp only [Window.overlaps, Window.holds, decide_eq_true_eq]
  constructor
  · intro bounds
    exact ⟨max v.base w.base, by omega⟩
  · rintro ⟨a, inBoth⟩
    omega

/-- Window `i` of the unit is valid and meets a test. -/
def TranslationUnit.windowMeets (u : TranslationUnit) (test : Window → Bool) (i : Nat) : Bool :=
  match u.window i with
  | some w => test w
  | none => false

theorem TranslationUnit.windowMeets_iff (u : TranslationUnit) (test : Window → Bool) (i : Nat) :
    u.windowMeets test i = true ↔ ∃ w, u.window i = some w ∧ test w = true := by
  unfold TranslationUnit.windowMeets
  cases u.window i <;> simp

/-- Some valid window of the unit shares an address with the given one. -/
def TranslationUnit.overlapped (u : TranslationUnit) (w : Window) : Bool :=
  (List.range Config.windowCount).any (u.windowMeets w.overlaps)

theorem TranslationUnit.overlapped_iff (u : TranslationUnit) (w : Window) :
    u.overlapped w = true ↔
      ∃ i v a, i < 8 ∧ u.window i = some v ∧ w.holds a = true ∧ v.holds a = true := by
  simp only [TranslationUnit.overlapped, List.any_eq_true, List.mem_range,
    TranslationUnit.windowMeets_iff, Window.overlaps_iff]
  constructor
  · rintro ⟨i, hi, v, hv, a, inBoth⟩
    exact ⟨i, v, a, hi, hv, inBoth⟩
  · rintro ⟨i, v, a, hi, hv, inBoth⟩
    exact ⟨i, hi, v, hv, a, inBoth⟩

/-! ### Updates of the host's own unit -/

/-- A command that rewrites a part of its host's unit and is answered OK in its taking. -/
theorem State.finish_setUnit_taken (hm : (s.port h).portState = .member) (u : TranslationUnit) (r : Result) :
    ((s.beginTaking h).setUnit h u).finish h d r = (s.replied h d r).setUnit h u := by
  rw [State.finish, State.complete_setUnit, ← State.finish, State.finish_taken hm]

/-! ### CLEAR_WINDOW and UNMAP_SLOT -/

theorem clearWindowEffect_eq :
    clearWindowEffect h d s =
      if 7 < d.window then s.finish h d .badArgument
      else (s.setUnit h ((s.unit h).setWindow d.window none)).finish h d .ok := rfl

theorem unmapSlotEffect_eq :
    unmapSlotEffect h d s =
      if 4095 < d.slot then s.finish h d .badArgument
      else (s.setUnit h ((s.unit h).setSlot d.slot none)).finish h d .ok := rfl

/-- Settles O24: both commands test their index and then empty the entry. -/
theorem windowAndSlotEmptied : Obligations.WindowAndSlotEmptied := by
  intro s h d
  refine ⟨fun ht => ?_, fun ht => ?_⟩
  · rw [exec_clearWindow ht, clearWindowEffect_eq, State.finish_taken ht.member,
      State.finish_setUnit_taken ht.member]
    rfl
  · rw [exec_unmapSlot ht, unmapSlotEffect_eq, State.finish_taken ht.member,
      State.finish_setUnit_taken ht.member]
    rfl

/-! ### MAP_SLOT -/

/-- What a MAP_SLOT that passes its checks does (R93). -/
def State.mapSlotPassed (s : State) (h : HostId) (d : Desc) : State :=
  (s.setUnit h ((s.unit h).setSlot d.slot (some ⟨d.frame, (s.frame d.frame).generation⟩))).finish h d .ok

theorem mapSlotEffect_eq :
    mapSlotEffect h d s = s.unlessRefused h d (s.mapSlotCheck h d) (s.mapSlotPassed h d) := rfl

theorem State.beginTaking_mapSlotCheck : (s.beginTaking h).mapSlotCheck h d = s.mapSlotCheck h d := by
  simp only [State.mapSlotCheck, State.beginTaking_ownerLeaving]
  rfl

/-- Settles O25: R92's checks in order, then the slot of R93. -/
theorem mapSlotTaken : Obligations.MapSlotTaken := by
  intro s h d ht
  have hm := ht.member
  have range : Config.slotCount ≤ d.slot ↔ 4095 < d.slot := Iff.rfl
  rw [exec_mapSlot ht, mapSlotEffect_eq, State.beginTaking_mapSlotCheck]
  simp only [State.mapSlotCheck, range]
  split_ifs with hbad hleaving haccess hstate
  · exact congrArg _ (State.finish_taken hm d .badArgument)
  · exact congrArg _ (State.finish_taken hm d .ownerLeaving)
  · exact congrArg _ (State.finish_taken hm d .noAccess)
  · exact congrArg _ (State.finish_taken hm d .wrongState)
  · exact congrArg _ (State.finish_setUnit_taken hm _ .ok)

/-! ### SET_WINDOW -/

/-- What a SET_WINDOW that passes its checks does (R89). -/
def State.setWindowPassed (s : State) (h : HostId) (d : Desc) : State :=
  (s.setUnit h ((s.unit h).setWindow d.window (some d.toWindow))).finish h d .ok

theorem setWindowEffect_eq :
    setWindowEffect h d s = s.unlessRefused h d (s.setWindowCheck h d) (s.setWindowPassed h d) := rfl

theorem State.beginTaking_setWindowCheck : (s.beginTaking h).setWindowCheck h d = s.setWindowCheck h d := rfl

/-- What a SET_WINDOW is refused with before the overlap test, the first that applies (R34, R88). -/
def State.windowRefusal (s : State) (h : HostId) (d : Desc) : Option Result :=
  if 7 < d.window ∨ 14 < d.sizeCode ∨ 1 < d.windowMode then some .badArgument
  else if ((s.unit h).window d.window).isSome then some .busy
  else if d.base % (65536 * 2 ^ d.sizeCode) ≠ 0 then some .badArgument
  else if 64 * 2 ^ 30 ≤ d.base then some .badArgument
  else if d.windowMode = 0 ∧ s.frameCount < d.first + 2 ^ d.sizeCode then some .badArgument
  else if d.windowMode = 1 ∧ 4096 < d.first + 2 ^ d.sizeCode then some .badArgument
  else none

theorem Desc.windowFieldsLegal_eq_false_iff :
    d.windowFieldsLegal = false ↔ 7 < d.window ∨ 14 < d.sizeCode ∨ 1 < d.windowMode := by
  have count : Config.windowCount = 8 := rfl
  rw [Desc.windowFieldsLegal, decide_eq_false_iff_not]
  omega

/-- The check of SET_WINDOW with the part's constants put in (R88). -/
theorem State.setWindowCheck_eq :
    s.setWindowCheck h d =
      if d.windowFieldsLegal = false then .badArgument
      else if ((s.unit h).window d.window).isSome then .busy
      else if d.base % (65536 * 2 ^ d.sizeCode) ≠ 0 then .badArgument
      else if 64 * 2 ^ 30 ≤ d.base then .badArgument
      else if d.windowMode = 0 ∧ s.frameCount < d.first + 2 ^ d.sizeCode then .badArgument
      else if d.windowMode ≠ 0 ∧ 4096 < d.first + 2 ^ d.sizeCode then .badArgument
      else if (s.unit h).overlapped d.toWindow then .overlap
      else .ok := rfl

/-- The check of SET_WINDOW, put as a refusal: those before the overlap test, then the overlap test. -/
theorem State.setWindowCheck_refusal :
    (s.setWindowCheck h d).refusal =
      (s.windowRefusal h d).or (if (s.unit h).overlapped d.toWindow then some .overlap else none) := by
  unfold State.windowRefusal
  by_cases illegal : 7 < d.window ∨ 14 < d.sizeCode ∨ 1 < d.windowMode
  · rw [State.setWindowCheck_eq, if_pos (Desc.windowFieldsLegal_eq_false_iff.mpr illegal), if_pos illegal]
    rfl
  · have mapped : d.windowMode = 1 ↔ d.windowMode ≠ 0 := by omega
    rw [State.setWindowCheck_eq, if_neg (mt Desc.windowFieldsLegal_eq_false_iff.mp illegal), if_neg illegal]
    simp only [mapped]
    split_ifs <;> rfl

theorem exec_setWindow_refused {r : Result} (ht : s.Takes h d codeSetWindow)
    (hr : (s.setWindowCheck h d).refusal = some r) : exec .setWindow s = .next (s.replied h d r) := by
  rw [exec_setWindow ht, setWindowEffect_eq, State.beginTaking_setWindowCheck, State.unlessRefused_of_refusal hr,
    State.finish_taken ht.member]

theorem exec_setWindow_passed (ht : s.Takes h d codeSetWindow) (hok : s.setWindowCheck h d = .ok) :
    exec .setWindow s =
      .next ((s.replied h d .ok).setUnit h ((s.unit h).setWindow d.window (some d.toWindow))) := by
  rw [exec_setWindow ht, setWindowEffect_eq, State.beginTaking_setWindowCheck, hok, State.unlessRefused_ok]
  exact congrArg _ (State.finish_setUnit_taken ht.member _ .ok)

theorem Result.refusal_eq_none_iff (r : Result) : r.refusal = none ↔ r = .ok := by
  cases r <;> simp [Result.refusal]

/-- Settles O23: the refusals before the overlap test, then the overlap test, then the window of R89. -/
theorem setWindowTaken : Obligations.SetWindowTaken := by
  intro s h d ht
  refine ⟨fun r hr => ?_, fun hwindow hsize hmode hfree haligned hbase hdirect hmapped => ?_⟩
  · have refused : s.windowRefusal h d = some r := hr
    apply exec_setWindow_refused ht
    rw [State.setWindowCheck_refusal, refused, Option.some_or]
  · have legal : s.windowRefusal h d = none := by
      have fields : ¬ (7 < d.window ∨ 14 < d.sizeCode ∨ 1 < d.windowMode) := by omega
      have direct : ¬ (d.windowMode = 0 ∧ s.frameCount < d.first + 2 ^ d.sizeCode) :=
        fun x => Nat.not_lt.mpr (hdirect x.1) x.2
      have mapped : ¬ (d.windowMode = 1 ∧ 4096 < d.first + 2 ^ d.sizeCode) :=
        fun x => Nat.not_lt.mpr (hmapped x.1) x.2
      simp only [State.windowRefusal, fields, hfree, haligned, Nat.not_le.mpr hbase, direct, mapped]
      rfl
    refine ⟨?_, ?_⟩
    · rintro ⟨i, w, a, hi, hw, hd0, hd1, hw0, hw1⟩
      have meets : (s.unit h).overlapped d.toWindow = true :=
        (TranslationUnit.overlapped_iff _ _).mpr
          ⟨i, w, a, hi, hw, (Window.holds_iff _ _).mpr ⟨hd0, hd1⟩, (Window.holds_iff _ _).mpr ⟨hw0, hw1⟩⟩
      apply exec_setWindow_refused ht
      rw [State.setWindowCheck_refusal, legal, Option.none_or, if_pos meets]
    · intro apart
      have clear : ¬ (s.unit h).overlapped d.toWindow = true := by
        rw [TranslationUnit.overlapped_iff]
        rintro ⟨i, w, a, hi, hw, hd, hwa⟩
        obtain ⟨hd0, hd1⟩ := (Window.holds_iff _ _).mp hd
        exact apart i w a hi hw hd0 hd1 ((Window.holds_iff _ _).mp hwa)
      apply exec_setWindow_passed ht
      rw [← Result.refusal_eq_none_iff, State.setWindowCheck_refusal, legal, Option.none_or, if_neg clear]

end Sys2Proof.Machine
end

section
/-! SUPPORT. The access check test by test (R95 to R102), and what the arrival of a data request makes of each of its
outcomes (R103, R109 to R111). -/

namespace Sys2Proof.Machine

variable {s : State} {h : HostId}

/-! ### The window of an address -/

theorem TranslationUnit.windowAt_eq (u : TranslationUnit) (address : Nat) :
    u.windowAt address = (List.range 8).find? (u.windowMeets (·.holds address)) := rfl

variable {u : TranslationUnit} {address i : Nat}

/-- A window outside which an address lies is not the one that translates it. -/
theorem TranslationUnit.windowMeets_holds_of_outside
    (ho : ∀ w, u.window i = some w → ¬ (w.base ≤ address ∧ address < w.base + 65536 * 2 ^ w.sizeCode)) :
    (!u.windowMeets (·.holds address) i) = true := by
  rw [Bool.not_eq_true', ← Bool.not_eq_true, TranslationUnit.windowMeets_iff]
  rintro ⟨w, hw, inside⟩
  exact ho w hw ((Window.holds_iff w address).mp inside)

/-- An address outside every valid window is translated by none (R95). -/
theorem TranslationUnit.windowAt_none_of_outside
    (ho : ∀ i w, i < 8 → u.window i = some w →
      ¬ (w.base ≤ address ∧ address < w.base + 65536 * 2 ^ w.sizeCode)) : u.windowAt address = none := by
  rw [TranslationUnit.windowAt_eq, List.find?_range_eq_none]
  intro i hi
  exact TranslationUnit.windowMeets_holds_of_outside (fun w => ho i w hi)

/-- An address is translated by the first valid window that contains it (R95). -/
theorem TranslationUnit.windowAt_some_of_first {w : Window} (hi : i < 8) (hw : u.window i = some w)
    (inside : w.base ≤ address ∧ address < w.base + 65536 * 2 ^ w.sizeCode)
    (ho : ∀ j v, j < i → u.window j = some v →
      ¬ (v.base ≤ address ∧ address < v.base + 65536 * 2 ^ v.sizeCode)) : u.windowAt address = some i := by
  rw [TranslationUnit.windowAt_eq, List.find?_range_eq_some]
  refine ⟨?_, List.mem_range.mpr hi, fun j hj => ?_⟩
  · exact (TranslationUnit.windowMeets_iff _ _ _).mpr ⟨w, hw, (Window.holds_iff w address).mpr inside⟩
  · exact TranslationUnit.windowMeets_holds_of_outside (fun v => ho j v hj)

/-! ### The tests of the access check -/

variable {a : Access} {w : Window}

theorem State.accessCheck_not_member (hm : (s.port h).portState ≠ .member) :
    s.accessCheck h a address = .notMember :=
  if_pos ((State.isMember_eq_false_iff s h).mpr hm)

theorem State.accessCheck_no_window (hm : (s.port h).portState = .member)
    (hn : (s.unit h).windowAt address = none) : s.accessCheck h a address = .fault .noWindow none none := by
  have member : ¬ s.isMember h = false := by simp [(State.isMember_iff s h).mpr hm]
  simp only [State.accessCheck, if_neg member, hn]

/-- The check of an address that window `i` translates: the test of the window's writable flag, then translation (R98). -/
theorem State.accessCheck_of_windowAt (hm : (s.port h).portState = .member)
    (ha : (s.unit h).windowAt address = some i) (hw : (s.unit h).window i = some w) :
    s.accessCheck h a address =
      if a.isWrite = true ∧ w.writable = false then .fault .readOnlyWindow (some i) none
      else s.checkWindow h a address i w := by
  have member : ¬ s.isMember h = false := by simp [(State.isMember_iff s h).mpr hm]
  simp only [State.accessCheck, if_neg member, ha, hw]

/-- A mapped page whose slot is empty (R97). -/
theorem State.checkWindow_empty {base : Nat} (hmap : w.map = .mapped base)
    (hn : (s.unit h).slot (base + (address - w.base) / 65536) = none) :
    s.checkWindow h a address i w = .fault .emptySlot (some i) none := by
  simp only [State.checkWindow, hmap, hn]

/-- A mapped page whose slot holds an earlier generation of its frame (R97). -/
theorem State.checkWindow_stale {base f : Nat} {g : BitVec 8} (hmap : w.map = .mapped base)
    (hs : (s.unit h).slot (base + (address - w.base) / 65536) = some ⟨f, g⟩) (hg : g ≠ (s.frame f).generation) :
    s.checkWindow h a address i w = .fault .staleSlot (some i) (some f) := by
  simp only [State.checkWindow, hmap, hs, if_pos hg]

/-- The frame that the page of an address in a window resolves to (R95 to R97). -/
def State.Resolves (s : State) (h : HostId) (w : Window) (address f : Nat) : Prop :=
  (∃ first, w.map = .direct first ∧ f = first + (address - w.base) / 65536) ∨
    (∃ base, w.map = .mapped base ∧
      (s.unit h).slot (base + (address - w.base) / 65536) = some ⟨f, (s.frame f).generation⟩)

/-- A page that resolves to a frame is left to the tests on that frame's record (R101). -/
theorem State.checkWindow_of_resolves {f : Nat} (hf : s.Resolves h w address f) :
    s.checkWindow h a address i w = s.checkFrame h a i f ((address - w.base) % 65536) := by
  obtain ⟨first, hmap, rfl⟩ | ⟨base, hmap, hs⟩ := hf
  · simp only [State.checkWindow, hmap]
  · simp [State.checkWindow, hmap, hs]

theorem FrameRecord.isOwned_eq_false_iff (r : FrameRecord) :
    r.isOwned = false ↔ r.state = .free ∨ r.state = .scrubbing := by
  cases hr : r.state <;> simp [FrameRecord.isOwned, hr]

/-- R102: what a level does not permit. -/
theorem Level.permits_eq_false_iff (l : Level) (a : Access) :
    l.permits a = false ↔ l = .none ∨ (a.isWrite = true ∧ l = .read) := by
  cases l <;> simp [Level.permits]

/-- The tests on the resolved frame's record, in their order (R102). -/
theorem State.checkFrame_eq (f offset : Nat) :
    s.checkFrame h a i f offset =
      if (s.frame f).state = .free ∨ (s.frame f).state = .scrubbing then .fault .frameState (some i) (some f)
      else if (s.frame f).access.get h = .none ∨ (a.isWrite = true ∧ (s.frame f).access.get h = .read) then
        .fault .noRights (some i) (some f)
      else if (s.frame f).closing.get h = true then .fault .recalled (some i) (some f)
      else .pass f offset := by
  simp only [State.checkFrame, FrameRecord.isOwned_eq_false_iff, Level.permits_eq_false_iff]

/-- Settles O33: membership, the window of the address, its writable flag, its page's frame, then that frame's record. -/
theorem accessCheckInOrder : Obligations.AccessCheckInOrder := by
  intro s h a address
  refine ⟨State.accessCheck_not_member, fun hm outside => ?_, fun i w hm hi hw hlow hhigh first => ?_⟩
  · exact State.accessCheck_no_window hm (TranslationUnit.windowAt_none_of_outside outside)
  · have translated := TranslationUnit.windowAt_some_of_first hi hw ⟨hlow, hhigh⟩ first
    rw [State.accessCheck_of_windowAt hm translated hw]
    refine ⟨fun hwrite hflag => if_pos ⟨hwrite, hflag⟩, fun permitted => ?_⟩
    rw [if_neg permitted]
    refine ⟨fun base => State.checkWindow_empty, fun base f g => State.checkWindow_stale, fun f hf => ?_⟩
    rw [State.checkWindow_of_resolves hf, State.checkFrame_eq]

/-! ### The arrival of a data request -/

variable {r : DataRequest}

theorem exec_dataRequestArrival (hd : s.delivers h = true) (he : requestExpressible r = true) :
    exec (.dataRequestArrival h r) s = .next (s.arrival h r) :=
  if_pos ⟨hd, he⟩

theorem TranslationUnit.holdsTag_iff (u : TranslationUnit) (tag : Fin 32) :
    u.holdsTag tag = true ↔ ∃ e ∈ u.ort, e.tag = tag := by
  simp [TranslationUnit.holdsTag]

/-- A message on a link that is up joins what the port has sent (R109). -/
theorem HostPort.send_of_linkUp {p : HostPort} (hl : p.linkUp = true) (m : LinkMessage) :
    p.send m = { p with sent := p.sent ++ [m] } := if_pos hl

theorem State.linkUp_of_delivers (hd : s.delivers h = true) : (s.port h).linkUp = true := by
  simp only [State.delivers, Bool.and_eq_true] at hd
  exact hd.1

/-- R103, R109: a failed write returns its credit alone, a failed read is answered with FFh bytes. -/
theorem failedReply_eq (r : DataRequest) :
    failedReply r =
      if r.access.isWrite then .creditReturn r.tag
      else .readCompletion r.tag .accessFault (List.replicate (requestLength r) 0xFF) := by
  unfold failedReply
  cases r.access <;> rfl

/-- A failure without a fault kind sends the reply and nothing more (R103). -/
theorem State.failRequest_none (hl : (s.port h).linkUp = true) :
    s.failRequest h r none = s.setPort h { s.port h with sent := (s.port h).sent ++ [failedReply r] } := by
  rw [State.failRequest, State.send_eq, HostPort.send_of_linkUp hl]

/-- A failure with a fault kind sends the reply and reports the fault at the host's own port (R103). -/
theorem State.failRequest_some (hl : (s.port h).linkUp = true) (x : FaultRecord) :
    s.failRequest h r (some x) =
      s.setPort h { (s.port h).reportFault x with sent := (s.port h).sent ++ [failedReply r] } := by
  have up : ((s.port h).reportFault x).linkUp = true := by rw [HostPort.reportFault_linkUp, hl]
  rw [State.failRequest, State.send_eq, State.updPort_eq, State.setPort_port, if_pos rfl,
    HostPort.send_of_linkUp up, HostPort.reportFault_sent, State.setPort_setPort]

/-- A request whose tag the ORT holds is reported and discarded (R110). -/
theorem State.arrival_of_held (ht : ∃ e ∈ (s.unit h).ort, e.tag = r.tag) :
    s.arrival h r = s.setPort h ((s.port h).reportFault (requestFault r .creditViolation none none)) :=
  if_pos ((TranslationUnit.holdsTag_iff _ _).mpr ht)

theorem TranslationUnit.not_holdsTag_of_free {u : TranslationUnit} {tag : Fin 32} (ht : ∀ e ∈ u.ort, e.tag ≠ tag) :
    ¬ u.holdsTag tag = true := by
  rw [TranslationUnit.holdsTag_iff]
  rintro ⟨e, he, heq⟩
  exact ht e he heq

/-- A host that is not a member is answered, and nothing is reported (R103). -/
theorem State.arrival_not_member (ht : ∀ e ∈ (s.unit h).ort, e.tag ≠ r.tag)
    (hc : s.accessCheck h r.access (requestAddress r) = .notMember) : s.arrival h r = s.failRequest h r none := by
  simp only [State.arrival, if_neg (TranslationUnit.not_holdsTag_of_free ht), hc]

/-- A fault of the access check is answered and reported (R103). -/
theorem State.arrival_fault {kind : FaultKind} {window frame : Option Nat}
    (ht : ∀ e ∈ (s.unit h).ort, e.tag ≠ r.tag)
    (hc : s.accessCheck h r.access (requestAddress r) = .fault kind window frame) :
    s.arrival h r = s.failRequest h r (some (requestFault r kind window frame)) := by
  simp only [State.arrival, if_neg (TranslationUnit.not_holdsTag_of_free ht), hc]

/-- A request that passes the access check is admitted at the end of the ORT (R111). -/
theorem State.arrival_pass {f offset : Nat} (ht : ∀ e ∈ (s.unit h).ort, e.tag ≠ r.tag)
    (hc : s.accessCheck h r.access (requestAddress r) = .pass f offset) :
    s.arrival h r =
      s.setUnit h { s.unit h with ort := (s.unit h).ort ++ [admittedEntry r f offset] } := by
  simp only [State.arrival, if_neg (TranslationUnit.not_holdsTag_of_free ht), hc, State.updUnit_eq]

/-- Settles O34: the tag test, then the three outcomes of the access check. -/
theorem dataRequestArrives : Obligations.DataRequestArrives := by
  intro s h r hd he address length refusal
  have hl := State.linkUp_of_delivers hd
  have reply : failedReply r = refusal := failedReply_eq r
  rw [exec_dataRequestArrival hd he]
  refine ⟨fun held => ?_, fun free => ⟨fun outside => ?_, fun kind window frame failed => ?_,
    fun f offset passed => ?_⟩⟩
  · exact congrArg _ (State.arrival_of_held held)
  · rw [State.arrival_not_member free outside, State.failRequest_none hl, reply]
  · rw [State.arrival_fault free failed, State.failRequest_some hl, reply]
    rfl
  · exact congrArg _ (State.arrival_pass free passed)

end Sys2Proof.Machine
end

section
/-! SUPPORT. What a notice, a completion and a fault report make of a port (R129, R130, R135), and the port operations
that keep the interrupt line equal to its condition (R139). -/

namespace Sys2Proof.Machine

/-! ### Fault reports -/

theorem HostPort.reportFault_of_not_member {p : HostPort} (r : FaultRecord) (hp : p.portState ≠ .member) :
    p.reportFault r = p := if_neg hp

theorem HostPort.reportFault_room {p : HostPort} (r : FaultRecord) (hp : p.portState = .member)
    (hr : p.faults.length < 8) : p.reportFault r = { p with faults := p.faults ++ [r] }.refreshHirq := by
  rw [HostPort.reportFault, if_pos hp, if_pos hr]

theorem HostPort.reportFault_full {p : HostPort} (r : FaultRecord) (hp : p.portState = .member)
    (hf : 8 ≤ p.faults.length) : p.reportFault r = { p with faults := suppressTail p.faults }.refreshHirq := by
  rw [HostPort.reportFault, if_pos hp, if_neg (Nat.not_lt.mpr hf)]

/-- With a record in the Fault Log the interrupt condition asks of it only the enable (R139). -/
theorem HostPort.hirqCondition_of_faults {p : HostPort} (hp : p.faults ≠ []) :
    p.hirqCondition = ((p.eventIe && (!p.events.isEmpty || p.noticeLost)) || p.faultIe) := by
  have full : p.faults.isEmpty = false := List.isEmpty_eq_false_iff.mpr hp
  simp [HostPort.hirqCondition, full]

/-- With NOTICE_LOST set the interrupt condition asks of the Event Queue only the enable (R139). -/
theorem HostPort.hirqCondition_of_noticeLost {p : HostPort} (hp : p.noticeLost = true) :
    p.hirqCondition = (p.eventIe || (p.faultIe && !p.faults.isEmpty)) := by
  simp [HostPort.hirqCondition, hp]

theorem HostPort.hasFreeEntry_iff (p : HostPort) : p.hasFreeEntry = true ↔ p.events.length + p.reserved < 64 :=
  decide_eq_true_iff

/-- Settles O32: the branches of the two posting operations, each with the interrupt condition of its result. -/
theorem noticesAndFaultsPosted : Obligations.NoticesAndFaultsPosted := by
  intro p e r
  refine ⟨fun hm => ⟨HostPort.postNotice_of_not_member e hm, HostPort.reportFault_of_not_member r hm⟩,
    fun hm room => ?_, fun hm full => ?_, fun hm room => ?_, fun older newest hm log full => ?_⟩
  · rw [HostPort.postNotice_room e hm ((HostPort.hasFreeEntry_iff p).mpr room), HostPort.refreshHirq,
      HostPort.hirqCondition_of_events (by simp)]
  · have taken : p.hasFreeEntry = false := by
      rw [← Bool.not_eq_true, HostPort.hasFreeEntry_iff]
      omega
    rw [HostPort.postNotice_full e hm taken, HostPort.refreshHirq, HostPort.hirqCondition_of_noticeLost rfl]
  · rw [HostPort.reportFault_room r hm room, HostPort.refreshHirq, HostPort.hirqCondition_of_faults (by simp)]
  · rw [HostPort.reportFault_full r hm full, HostPort.refreshHirq, log, suppressTail_append,
      HostPort.hirqCondition_of_faults (by simp)]

/-! ### One port's interrupt line -/

/-- The interrupt line of one port follows its condition (R139). -/
def HostPort.LineFollows (p : HostPort) : Prop := p.hirq = p.hirqCondition

theorem State.hirqFollows_iff (s : State) : s.HirqFollows ↔ ∀ h, (s.port h).LineFollows := Iff.rfl

theorem HostPort.refreshHirq_lineFollows (p : HostPort) : p.refreshHirq.LineFollows := rfl

/-- A line is low with both enables clear. -/
theorem HostPort.lineFollows_of_disabled {p : HostPort} (he : p.eventIe = false) (hf : p.faultIe = false)
    (hl : p.hirq = false) : p.LineFollows := by
  simp [HostPort.LineFollows, HostPort.hirqCondition, he, hf, hl]

theorem HostPort.initial_lineFollows : HostPort.initial.LineFollows := HostPort.lineFollows_of_disabled rfl rfl rfl

theorem HostPort.clearLists_lineFollows (p : HostPort) : p.clearLists.LineFollows :=
  HostPort.lineFollows_of_disabled rfl rfl rfl

theorem HostPort.startLeaving_lineFollows (p : HostPort) : p.startLeaving.LineFollows :=
  HostPort.lineFollows_of_disabled rfl rfl rfl

namespace HostPort.LineFollows

variable {p : HostPort} (hp : p.LineFollows)
include hp

theorem postNotice (e : Event) : (p.postNotice e).LineFollows := by
  unfold HostPort.postNotice
  split
  · split <;> exact HostPort.refreshHirq_lineFollows _
  · exact hp

theorem postCompletion (e : Event) : (p.postCompletion e).LineFollows := by
  unfold HostPort.postCompletion
  split
  · exact HostPort.refreshHirq_lineFollows _
  · exact hp

theorem reportFault (r : FaultRecord) : (p.reportFault r).LineFollows := by
  unfold HostPort.reportFault
  split
  · split <;> exact HostPort.refreshHirq_lineFollows _
  · exact hp

theorem send (m : LinkMessage) : (p.send m).LineFollows := by
  unfold HostPort.send
  split <;> exact hp

theorem endLeaving (cause : Cause) : (p.endLeaving cause).LineFollows := by
  unfold HostPort.endLeaving
  split
  · split
    · exact HostPort.refreshHirq_lineFollows _
    · exact hp
  · exact HostPort.lineFollows_of_disabled rfl rfl rfl

theorem submitted : p.submitted.LineFollows := by
  unfold HostPort.submitted
  split
  · split <;> exact hp
  · exact hp

theorem popEvent (len : Nat) : (p.popEvent len).LineFollows := by
  unfold HostPort.popEvent
  split
  · exact hp.send _
  · exact (HostPort.refreshHirq_lineFollows _).send _

theorem popFault (len : Nat) : (p.popFault len).LineFollows := by
  unfold HostPort.popFault
  split
  · exact hp.send _
  · exact (HostPort.refreshHirq_lineFollows _).send _

theorem clearNoticeLost (v : Option Byte) : (p.clearNoticeLost v).LineFollows := by
  unfold HostPort.clearNoticeLost
  split
  · split
    · exact HostPort.refreshHirq_lineFollows _
    · exact hp
  · exact hp

theorem setEnables (v : Option Byte) : (p.setEnables v).LineFollows := by
  unfold HostPort.setEnables
  split
  · exact HostPort.refreshHirq_lineFollows _
  · exact hp

end HostPort.LineFollows

end Sys2Proof.Machine
end

section
/-! SUPPORT. The shared operations keep every interrupt line equal to its condition (R139): each changes the ports,
if at all, by the port operations that keep the line. -/

namespace Sys2Proof.Machine

namespace State.HirqFollows

variable {s t : State}

/-- Only the ports bear on the law. An argument `by rfl` is checked last, when `t` is known. -/
theorem of_ports (hs : s.HirqFollows) (hp : t.ports = s.ports) : t.HirqFollows := by
  intro h
  rw [State.port, hp]
  exact hs h

theorem ite {c : Prop} [Decidable c] (ht : t.HirqFollows) (hu : s.HirqFollows) : (if c then t else s).HirqFollows := by
  split
  · exact ht
  · exact hu

theorem foldl {α : Type} {f : State → α → State}
    (hf : ∀ (s : State) (x : α), s.HirqFollows → (f s x).HirqFollows) (hs : s.HirqFollows) (l : List α) : (l.foldl f s).HirqFollows := by
  induction l generalizing s with
  | nil => exact hs
  | cons x xs ih => exact ih (hf s x hs)

variable (hs : s.HirqFollows)
include hs

theorem setDepartures (d : PerHost (Option Departure)) : ({ s with departures := d } : State).HirqFollows :=
  hs.of_ports (by rfl)

theorem setOwned (n : PerHost Nat) : ({ s with owned := n } : State).HirqFollows := hs.of_ports (by rfl)

theorem setScrubPos (n : Nat) : ({ s with scrubPos := n } : State).HirqFollows := hs.of_ports (by rfl)

theorem setJob (j : Job) : ({ s with job := j } : State).HirqFollows := hs.of_ports (by rfl)

theorem setFrame (f : Nat) (r : FrameRecord) : (s.setFrame f r).HirqFollows := hs.of_ports (by rfl)

theorem updFrame (f : Nat) (g : FrameRecord → FrameRecord) : (s.updFrame f g).HirqFollows := hs.setFrame f _

theorem setUnit (h : HostId) (u : TranslationUnit) : (s.setUnit h u).HirqFollows := hs.of_ports (by rfl)

theorem updUnit (h : HostId) (g : TranslationUnit → TranslationUnit) : (s.updUnit h g).HirqFollows := hs.setUnit h _

theorem setRecord (id : Nat) (r : Option RecallRecord) : (s.setRecord id r).HirqFollows := hs.of_ports (by rfl)

theorem removeWaiting (h : HostId) : (s.removeWaiting h).HirqFollows := hs.of_ports (by rfl)

/-! ### Ports -/

theorem setPort (h : HostId) {p : HostPort} (hp : p.LineFollows) : (s.setPort h p).HirqFollows := by
  rw [State.hirqFollows_iff]
  intro k
  rw [State.setPort_port]
  split
  · exact hp
  · exact hs k

theorem updPort (h : HostId) {g : HostPort → HostPort} (hg : ∀ p : HostPort, p.LineFollows → (g p).LineFollows) :
    (s.updPort h g).HirqFollows :=
  hs.setPort h (hg _ (hs h))

theorem notify (h : HostId) (e : Event) : (s.notify h e).HirqFollows := hs.updPort h fun _ hp => hp.postNotice e

theorem notifyAll (l : List HostId) (e : Event) : (s.notifyAll l e).HirqFollows :=
  foldl (fun _ h hs => hs.notify h e) hs l

theorem complete (h : HostId) (tag : BitVec 16) (code : Byte) (r : Result) (p : Payload) :
    (s.complete h tag code r p).HirqFollows :=
  hs.updPort h fun _ hp => hp.postCompletion _

theorem finish (h : HostId) (d : Desc) (r : Result) : (s.finish h d r).HirqFollows := hs.complete h d.tag d.code r .none

theorem send (h : HostId) (m : LinkMessage) : (s.send h m).HirqFollows := hs.updPort h fun _ hp => hp.send m

theorem reportFault (h : HostId) (r : FaultRecord) : (s.updPort h (·.reportFault r)).HirqFollows :=
  hs.updPort h fun _ hp => hp.reportFault r

theorem beginTaking (h : HostId) : (s.beginTaking h).HirqFollows := by
  intro k
  rw [State.beginTaking_port]
  split
  · exact hs h
  · exact hs k

/-! ### Allocation and the Scrub Queue -/

theorem allocService (h : HostId) (tag : BitVec 16) (count : Nat) (label : Option (BitVec 16)) (inh : Bool) :
    (s.allocService h tag count label inh).HirqFollows := by
  rw [State.allocService_eq]
  exact (hs.complete h tag codeAlloc .ok _).of_ports (by rfl)

theorem serveEntries (l : List WaitEntry) : (Machine.serveEntries l s).HirqFollows := by
  induction l generalizing s with
  | nil => exact hs.of_ports (by rfl)
  | cons e rest ih =>
    rw [Machine.serveEntries]
    exact ite (ih (allocService (hs.of_ports (by rfl)) _ _ _ _ _)) (hs.of_ports (by rfl))

theorem serveWaitList : s.serveWaitList.HirqFollows := hs.serveEntries s.waitList

theorem lowerOwned (owner : Option HostId) : (s.lowerOwned owner).HirqFollows := by
  cases owner <;> exact hs.of_ports (by rfl)

theorem enterScrubbing (f : Nat) : (s.enterScrubbing f).HirqFollows := by
  rw [State.enterScrubbing_eq]
  exact hs.of_ports (by rfl)

theorem endScrub (f : Nat) (rest : List Nat) : (s.endScrub f rest).HirqFollows := by
  rw [State.endScrub]
  exact serveWaitList (hs.of_ports (by rfl))

/-! ### The recall machinery -/

theorem moveRecord (id : Nat) (old new : RecallRecord) : (s.moveRecord id old new).HirqFollows := hs.of_ports (by rfl)

theorem openRecord (id : Nat) (r : RecallRecord) : (s.openRecord id r).HirqFollows := by
  have opened := fun g => (hs.updFrame r.frame g).moveRecord id { r with targets := PerHost.all none } r
  unfold State.openRecord
  split
  · exact notifyAll (opened _) _ _
  · exact opened _

theorem drainNotice (r : RecallRecord) (h : HostId) : (s.drainNotice r h).HirqFollows := by
  unfold State.drainNotice
  split
  · exact hs.notify h _
  · exact ite hs (hs.notify h _)
  · exact hs.notify h _
  · split
    · exact hs.notify _ _
    · exact hs

theorem completeRecord (id : Nat) (r : RecallRecord) : (s.completeRecord id r).HirqFollows := by
  unfold State.completeRecord
  have removed := fun g => (hs.setRecord id none).updFrame r.frame g
  exact complete (ite (enterScrubbing (removed _) r.frame) (removed _)) _ _ _ _ _

theorem drainTarget (id : Nat) (r : RecallRecord) (h : HostId) (quiet : Bool) :
    (s.drainTarget id r h quiet).HirqFollows := by
  have noticed : ∀ u : State, u.HirqFollows → (if quiet then u else u.drainNotice r h).HirqFollows :=
    fun _ hu => ite hu (hu.drainNotice r h)
  unfold State.drainTarget
  have drained := (hs.moveRecord id r (r.setPhase h .drained).follow).updFrame r.frame
  exact ite (completeRecord (noticed _ (drained _)) id _) (noticed _ (drained _))

theorem drainSwept (h : HostId) (f : Nat) (o : HostId) : (s.drainSwept h f o).HirqFollows := by
  unfold State.drainSwept
  exact ite (setDepartures (enterScrubbing (notify (hs.updFrame f _) h _) f) _) (notify (hs.updFrame f _) h _)

theorem drainReport (h : HostId) (f : Nat) : (s.drainReport h f).HirqFollows := by
  unfold State.drainReport
  refine ite hs ?_
  split
  · split
    · exact ite hs (hs.drainTarget _ _ h false)
    · exact hs
  · split
    · exact hs.drainSwept h f _
    · exact hs

theorem upgradeRecord (id : Nat) : (s.upgradeRecord id).HirqFollows := by
  unfold State.upgradeRecord
  split
  · exact hs.moveRecord id _ _
  · exact hs

theorem graceExpiry (id : Nat) : (s.graceExpiry id).HirqFollows := by
  unfold State.graceExpiry
  split
  · split
    · exact ite (hs.moveRecord id _ _) hs
    · exact hs
  · exact hs

/-! ### Offers -/

theorem removeOffer (i : Nat) (o : Offer) : (s.removeOffer i o).HirqFollows := hs.of_ports (by rfl)

theorem moveOwnership (h : HostId) (i : Nat) (o : Offer) : (s.moveOwnership h i o).HirqFollows := by
  unfold State.moveOwnership
  exact setOwned (lowerOwned (hs.of_ports (by rfl)) _) _

theorem offerExpiry (i : Nat) : (s.offerExpiry i).HirqFollows := by
  unfold State.offerExpiry
  split
  · exact ite (((hs.removeOffer i _).notify _ _).notify _ _) hs
  · exact hs

theorem withdrawForFree (f : Nat) : (s.withdrawForFree f).HirqFollows := by
  unfold State.withdrawForFree
  split
  · split
    · exact (hs.removeOffer _ _).notify _ _
    · exact hs
  · exact hs

theorem closeOffersOf (h : HostId) : (s.closeOffersOf h).HirqFollows := by
  refine foldl (fun s i hs => ?_) hs _
  split
  · exact (hs.removeOffer i _).notify _ _
  · exact hs

/-! ### Departures -/

theorem upgradeRecordsOf (h : HostId) : (s.upgradeRecordsOf h).HirqFollows := by
  refine foldl (fun s id hs => ?_) hs _
  split
  · exact ite (hs.upgradeRecord id) hs
  · exact hs

theorem startDeparture (h : HostId) (cause : Cause) : (s.startDeparture h cause).HirqFollows := by
  unfold State.startDeparture
  have left : (s.updPort h (·.startLeaving)).HirqFollows := hs.updPort h fun p _ => p.startLeaving_lineFollows
  have upgraded : ∀ u : State, u.HirqFollows → ((u.closeOffersOf h).upgradeRecordsOf h).HirqFollows :=
    fun _ hu => (hu.closeOffersOf h).upgradeRecordsOf h
  have started := fun g =>
    ((left.updUnit h g).setDepartures (s.departures.set h (some ⟨cause, .draining⟩))).removeWaiting h
  exact ite (serveWaitList (upgraded _ (started _))) (upgraded _ (started _))

theorem settleDeparting (h : HostId) (f : Nat) : (s.settleDeparting h f).HirqFollows := by
  unfold State.settleDeparting
  split
  · split
    · exact ite hs (hs.drainTarget _ _ h true)
    · exact hs
  · split
    · exact ite (hs.drainSwept h f _) hs
    · exact hs

theorem endDrainPhase (h : HostId) (cause : Cause) : (s.endDrainPhase h cause).HirqFollows := by
  unfold State.endDrainPhase
  exact setDepartures (foldl (fun _ f hu => hu.settleDeparting h f) (hs.of_ports (by rfl)) _) _

theorem endDeparture (h : HostId) (cause : Cause) : (s.endDeparture h cause).HirqFollows := by
  unfold State.endDeparture
  exact updPort (notifyAll (hs.of_ports (by rfl)) _ _) h fun _ hp => hp.endLeaving cause

theorem passSweep (h : HostId) (cause : Cause) (position : Nat) : (s.passSweep h cause position).HirqFollows := by
  unfold State.passSweep
  exact ite (hs.of_ports (by rfl)) (hs.endDeparture h cause)

theorem removeGrant (f : Nat) (h : HostId) : (s.removeGrant f h).HirqFollows := by
  unfold State.removeGrant
  dsimp only
  split
  · exact notify (hs.of_ports (by rfl)) _ _
  · exact hs.of_ports (by rfl)

theorem inheritFrame (f : Nat) (h k : HostId) : (s.inheritFrame f h k).HirqFollows := by
  unfold State.inheritFrame
  exact notifyAll (notify (setOwned (lowerOwned (hs.updFrame f _) (some h)) _) k _) _ _

theorem beginForcedFreeing (f : Nat) (h : HostId) (cause : Cause) :
    (s.beginForcedFreeing f h cause).HirqFollows := by
  unfold State.beginForcedFreeing
  exact ite ((hs.enterScrubbing f).passSweep h cause f) (hs.of_ports (by rfl))

theorem sweepAt (h : HostId) (cause : Cause) (f : Nat) : (s.sweepAt h cause f).HirqFollows := by
  unfold State.sweepAt
  refine ite (hs.passSweep h cause f) (ite hs (ite hs (ite ((hs.removeGrant f h).passSweep h cause f) (ite ?_ hs))))
  split
  · exact (hs.inheritFrame f h _).passSweep h cause f
  · exact hs.beginForcedFreeing f h cause

/-! ### The access path -/

theorem failRequest (h : HostId) (r : DataRequest) (fault : Option FaultRecord) :
    (s.failRequest h r fault).HirqFollows := by
  cases fault with
  | none => exact hs.send h _
  | some x => exact (hs.reportFault h x).send h _

theorem arrival (h : HostId) (r : DataRequest) : (s.arrival h r).HirqFollows := by
  unfold State.arrival
  refine ite (hs.reportFault h _) ?_
  split
  · exact hs.failRequest h r none
  · exact hs.failRequest h r _
  · exact hs.of_ports (by rfl)

theorem noteErrors (l : List (Nat × BlockError)) : (s.noteErrors l).HirqFollows := by
  rw [State.noteErrors_eq]
  exact hs.of_ports (by rfl)

theorem damageReport (h : HostId) (e : OrtEntry) : (s.damageReport h e).HirqFollows := by
  unfold State.damageReport
  exact reportFault (hs.of_ports (by rfl)) h _

theorem writeBlock (b : Nat) (g : Nat → Byte) : (s.writeBlock b g).HirqFollows := hs.of_ports (by rfl)

theorem writeEntryBlock (e : OrtEntry) (b : Nat) : (s.writeEntryBlock e b).HirqFollows := by
  unfold State.writeEntryBlock
  exact ite hs (hs.writeBlock b _)

theorem retire (h : HostId) (e : OrtEntry) (m : LinkMessage) : (s.retire h e m).HirqFollows := by
  unfold State.retire
  exact ite (drainReport (send (hs.updUnit h _) h m) h e.frame) (send (hs.updUnit h _) h m)

theorem scrubWriteEnd : s.scrubWriteEnd.HirqFollows := by
  unfold State.scrubWriteEnd
  split
  · exact hs.of_ports (by rfl)
  · next f rest _ =>
    have written := (hs.writeBlock (f * Config.blocksPerFrame + s.scrubPos) fun _ => 0).setJob .idle
    exact ite (setScrubPos written _) (written.endScrub _ _)

theorem readEnd (h : HostId) (e : OrtEntry) (e0 e1 : BlockError) : (s.readEnd h e e0 e1).HirqFollows := by
  unfold State.readEnd
  exact ite (retire (setJob (damageReport (hs.noteErrors _) h e) .idle) h e _)
    (retire (setJob (hs.noteErrors _) .idle) h e _)

theorem writeEnd (h : HostId) (e : OrtEntry) (e0 e1 : BlockError) : (s.writeEnd h e e0 e1).HirqFollows := by
  unfold State.writeEnd
  exact ite (retire (setJob (damageReport (hs.noteErrors _) h e) .idle) h e _)
    (retire (setJob (foldl (fun _ b hu => hu.writeEntryBlock e b) hs e.poolBlocks) .idle) h e _)

/-! ### Requests of a host and the events of a tick -/

theorem joinRequest (h : HostId) : (s.joinRequest h).HirqFollows := by
  unfold State.joinRequest
  refine ite (notifyAll (hs.updPort h ?_) _ _) (hs.updPort h ?_)
  · exact fun _ hp => hp
  · exact fun _ hp => hp

theorem drainCheck (h : HostId) (f : Nat) : (s.drainCheck h f).HirqFollows := by
  unfold State.drainCheck
  exact ite (hs.of_ports (by rfl)) (drainReport (hs.of_ports (by rfl)) h f)

theorem loadTimeout : s.loadTimeout.HirqFollows := by
  unfold State.loadTimeout
  exact ite (hs.of_ports (by rfl)) hs

theorem takeExpiries : s.takeExpiries.HirqFollows := by
  unfold State.takeExpiries
  exact foldl (fun _ i hu => hu.offerExpiry i) (foldl (fun _ id hu => hu.graceExpiry id) (hs.of_ports (by rfl)) _) _

theorem takeDue : s.takeDue.HirqFollows := hs.loadTimeout.takeExpiries

end State.HirqFollows

end Sys2Proof.Machine
end

section
/-! SUPPORT. The effects of the takings keep every interrupt line equal to its condition (R139), and with them every
step does. -/

namespace Sys2Proof.Machine

namespace State.HirqFollows

variable {s : State} (hs : s.HirqFollows) (h : HostId) (d : Desc)
include hs

/-- A checked command keeps the law where its passed case does: a refusal only posts a completion. -/
theorem unlessRefused (check : Result) {passed : State} (hp : passed.HirqFollows) :
    (s.unlessRefused h d check passed).HirqFollows := by
  cases check with
  | ok => exact hp
  | _ => exact hs.finish h d _

/-! ### Chapter 1's commands -/

theorem allocEffect : (allocEffect h d s).HirqFollows := by
  unfold Machine.allocEffect
  split
  · exact hs.finish h d _
  · exact hs.allocService h _ _ _ _
  · exact hs.of_ports (by rfl)
  · exact hs.complete h _ _ _ _

theorem cancelAllocEffect : (cancelAllocEffect h d s).HirqFollows := by
  have cancelled := fun tag =>
    ((hs.removeWaiting h).complete h tag codeAlloc .cancelled .none).finish h d .ok
  unfold Machine.cancelAllocEffect
  split
  · exact ite (ite (cancelled _).serveWaitList (cancelled _)) (hs.finish h d _)
  · exact hs.finish h d _

theorem setLabelEffect : (setLabelEffect h d s).HirqFollows :=
  hs.unlessRefused h d (s.ownerCheck h d.frame) ((hs.updFrame d.frame _).finish h d .ok)

theorem setInheritEffect : (setInheritEffect h d s).HirqFollows :=
  hs.unlessRefused h d (s.ownerCheck h d.frame) ((hs.updFrame d.frame _).finish h d .ok)

theorem queryFrameEffect : (queryFrameEffect h d s).HirqFollows := by
  unfold Machine.queryFrameEffect
  exact ite (hs.finish h d _) (hs.complete h _ _ _ _)

/-! ### Chapter 3's commands -/

theorem freeEffect : (freeEffect h d s).HirqFollows := by
  rw [freeEffect_eq]
  refine hs.unlessRefused h d _ ?_
  unfold State.freePassed
  split
  · exact openRecord (updFrame (hs.withdrawForFree d.frame) _ _) _ _
  · exact hs.finish h d _

theorem grantPassed (g : HostId) (level : Level) : (s.grantPassed h d g level).HirqFollows := by
  unfold State.grantPassed
  exact ite (hs.finish h d _) (((hs.setFrame d.frame _).notify g _).finish h d _)

theorem grantEffect : (grantEffect h d s).HirqFollows := by
  unfold Machine.grantEffect
  split
  · next g level _ _ =>
    exact ite (hs.finish h d _) (hs.unlessRefused h d (s.grantCheck h d.frame g level) (hs.grantPassed h d g level))
  · exact hs.finish h d _

theorem revokePassed (g : HostId) : (s.revokePassed h d g).HirqFollows := by
  unfold State.revokePassed
  split
  · split
    · exact ite ((hs.upgradeRecord _).finish h d _) (hs.finish h d _)
    · exact hs.finish h d _
  · split
    · exact hs.openRecord _ _
    · exact hs.finish h d _

theorem revokeEffect : (revokeEffect h d s).HirqFollows := by
  unfold Machine.revokeEffect
  split
  · next g _ =>
    exact ite (hs.finish h d _) (hs.unlessRefused h d (s.revokeCheck h d.frame g) (hs.revokePassed h d g))
  · exact hs.finish h d _

theorem releaseUnrecorded : (s.releaseUnrecorded h d).HirqFollows := by
  unfold State.releaseUnrecorded
  refine ite (hs.finish h d _) (ite (hs.finish h d _) (ite (hs.finish h d _) ?_))
  split
  · exact hs.openRecord _ _
  · exact hs.finish h d _

theorem releaseEffect : (releaseEffect h d s).HirqFollows := by
  unfold Machine.releaseEffect
  refine ite (hs.finish h d _) (ite (hs.finish h d _) ?_)
  split
  · split
    · exact ite ((hs.moveRecord _ _ _).finish h d _) (hs.finish h d _)
    · exact hs.finish h d _
  · exact hs.releaseUnrecorded h d

/-! ### Chapter 4's commands -/

theorem openOfferIn (t : HostId) (residual : Level) (i : Nat) : (s.openOfferIn h d t residual i).HirqFollows := by
  unfold State.openOfferIn
  exact complete (notify (updFrame (hs.of_ports (by rfl)) d.frame _) t _) h _ _ _ _

theorem offerPassed (t : HostId) (residual : Level) : (s.offerPassed h d t residual).HirqFollows := by
  unfold State.offerPassed
  split
  · exact hs.openOfferIn h d t residual _
  · exact hs.finish h d _

theorem offerEffect : (offerEffect h d s).HirqFollows := by
  unfold Machine.offerEffect
  split
  · next t residual _ _ =>
    exact ite (hs.finish h d _) (hs.unlessRefused h d (s.offerCheck h d.frame t) (hs.offerPassed h d t residual))
  · exact hs.finish h d _

theorem acceptPassed (o : Offer) : (s.acceptPassed h d o).HirqFollows := by
  have handed : (s.handOver h d o).HirqFollows :=
    ((hs.moveOwnership h d.handle.slot o).notify o.giver _).notifyAll _ _
  unfold State.acceptPassed
  refine ite ?_ (handed.finish h d _)
  split
  · exact handed.openRecord _ _
  · exact handed

theorem acceptEffect : (acceptEffect h d s).HirqFollows := by
  rcases ho : s.openOffer d.handle with _ | o
  · rw [acceptEffect_gone ho]
    exact hs.finish h d _
  · rw [acceptEffect_of_openOffer ho]
    exact hs.unlessRefused h d _ (hs.acceptPassed h d o)

theorem closeByParty (party other : Offer → HostId) (reason : CloseReason) :
    (s.closeByParty h d party other reason).HirqFollows := by
  unfold State.closeByParty
  split
  · exact hs.finish h d _
  · exact ite (hs.finish h d _) (((hs.removeOffer d.handle.slot _).notify _ _).finish h d _)

theorem declineEffect : (declineEffect h d s).HirqFollows := by
  rw [declineEffect_eq]
  exact hs.closeByParty h d _ _ _

theorem withdrawEffect : (withdrawEffect h d s).HirqFollows := by
  rw [withdrawEffect_eq]
  exact hs.closeByParty h d _ _ _

/-! ### Chapter 5's commands -/

theorem setWindowEffect : (setWindowEffect h d s).HirqFollows := by
  rw [setWindowEffect_eq]
  exact hs.unlessRefused h d _ ((hs.setUnit h _).finish h d .ok)

theorem clearWindowEffect : (clearWindowEffect h d s).HirqFollows := by
  unfold Machine.clearWindowEffect
  exact ite (hs.finish h d _) ((hs.updUnit h _).finish h d _)

theorem mapSlotEffect : (mapSlotEffect h d s).HirqFollows := by
  rw [mapSlotEffect_eq]
  exact hs.unlessRefused h d _ ((hs.setUnit h _).finish h d .ok)

theorem unmapSlotEffect : (unmapSlotEffect h d s).HirqFollows := by
  unfold Machine.unmapSlotEffect
  exact ite (hs.finish h d _) ((hs.updUnit h _).finish h d _)

end State.HirqFollows

/-! ### Commands -/

/-- The law holds in the next state, if the outcome has one. -/
def LinesFollowAfter (o : Host.Outcome State Fault Refusal) : Prop := ∀ t, o = .next t → t.HirqFollows

namespace State.HirqFollows

variable {s : State} (hs : s.HirqFollows)
include hs

theorem next : LinesFollowAfter (.next s) := by
  rintro t ⟨⟩
  exact hs

/-- A taking keeps the law where its command's effect does. -/
theorem taking {isRow : Byte → Bool} {act : HostId → Desc → State → State}
    (hact : ∀ (h : HostId) (d : Desc) (u : State), u.HirqFollows → (act h d u).HirqFollows) :
    LinesFollowAfter (taking isRow act s) := by
  intro t ht
  obtain rfl | ⟨h, raw, -, -, rfl⟩ := taking_cases ht
  · exact hs
  · exact hact h _ _ (hs.beginTaking h)

/-! ### Control accesses and data requests -/

/-- A control access that acts by one port operation, or not at all when the link does not deliver. -/
theorem portAccess {c : Prop} [Decidable c] (h : HostId) {g : HostPort → HostPort}
    (hg : ∀ p : HostPort, p.LineFollows → (g p).LineFollows) :
    LinesFollowAfter (if c then .next (s.updPort h g) else .next s) := by
  split
  · exact (hs.updPort h hg).next
  · exact hs.next

theorem execJoin (h : HostId) (w : ControlWrite) : LinesFollowAfter (execJoin h w s) := by
  unfold Machine.execJoin
  split
  · exact (hs.joinRequest h).next
  · exact hs.next

theorem execEventPop (h : HostId) (len : Nat) : LinesFollowAfter (execEventPop h len s) := by
  unfold Machine.execEventPop
  split
  · split
    · exact (hs.updPort h fun _ hp => hp.popEvent len).next
    · exact (hs.send h _).next
  · exact hs.next

theorem execFaultPop (h : HostId) (len : Nat) : LinesFollowAfter (execFaultPop h len s) := by
  unfold Machine.execFaultPop
  split
  · split
    · exact (hs.updPort h fun _ hp => hp.popFault len).next
    · exact (hs.send h _).next
  · exact hs.next

theorem execDataRequestArrival (h : HostId) (r : DataRequest) : LinesFollowAfter (execDataRequestArrival h r s) := by
  unfold Machine.execDataRequestArrival
  split
  · exact (hs.arrival h r).next
  · exact hs.next

/-! ### The Pool Controller -/

theorem execPoolGrant : LinesFollowAfter (execPoolGrant s) := by
  have scrubber : s.grantScrubber.HirqFollows := hs.of_ports (by rfl)
  unfold Machine.execPoolGrant
  split
  · split
    · exact scrubber.next
    · split
      · exact next (hs.of_ports (by rfl))
      · split
        · exact scrubber.next
        · exact hs.next
  · exact hs.next

theorem execScrubWritePerformed : LinesFollowAfter (execScrubWritePerformed s) := by
  unfold Machine.execScrubWritePerformed
  split
  · exact hs.scrubWriteEnd.next
  · exact hs.next

theorem execReadPerformed (e0 e1 : BlockError) : LinesFollowAfter (execReadPerformed e0 e1 s) := by
  unfold Machine.execReadPerformed
  split
  · split
    · split
      · exact hs.next
      · exact (hs.readEnd _ _ e0 e1).next
    · exact hs.next
  · exact hs.next

theorem execWritePerformed (e0 e1 : BlockError) : LinesFollowAfter (execWritePerformed e0 e1 s) := by
  unfold Machine.execWritePerformed
  split
  · split
    · split
      · exact (hs.writeEnd _ _ e0 e1).next
      · exact hs.next
    · exact hs.next
  · exact hs.next

/-! ### The Map Controller's own events -/

theorem execDrainCheck (h : HostId) (f : Nat) : LinesFollowAfter (execDrainCheck h f s) := by
  unfold Machine.execDrainCheck
  split
  · exact (hs.drainCheck h f).next
  · exact hs.next

theorem execDrainPhaseEnd (h : HostId) : LinesFollowAfter (execDrainPhaseEnd h s) := by
  unfold Machine.execDrainPhaseEnd
  split
  · split
    · exact (hs.endDrainPhase h _).next
    · exact hs.next
  · exact hs.next

theorem execSweepStep (h : HostId) : LinesFollowAfter (execSweepStep h s) := by
  unfold Machine.execSweepStep
  split
  · exact (hs.sweepAt h _ _).next
  · exact hs.next

/-! ### Start-up and links -/

theorem execTick : LinesFollowAfter (execTick s) := by
  unfold Machine.execTick
  split
  · exact hs.next
  · exact next (hs.takeDue.of_ports (by rfl))

theorem execImageReceived (image : List Byte) : LinesFollowAfter (execImageReceived image s) := by
  unfold Machine.execImageReceived
  split
  · split <;> exact next (hs.of_ports (by rfl))
  · exact hs.next

theorem execLinkUp (h : HostId) : LinesFollowAfter (execLinkUp h s) := by
  unfold Machine.execLinkUp
  split
  · exact hs.next
  · exact next (updPort hs h fun _ hp => by exact hp)

theorem execLinkDown (h : HostId) : LinesFollowAfter (execLinkDown h s) := by
  unfold Machine.execLinkDown
  split
  · exact hs.next
  · exact next (updPort hs h fun p _ => by exact p.clearLists_lineFollows)
  · exact next (startDeparture (updPort hs h fun _ hp => by exact hp) h .link)
  · exact next (updPort hs h fun _ hp => by exact hp)

theorem execResetDeassert (strap : BitVec 2) : LinesFollowAfter (execResetDeassert strap s) := by
  unfold Machine.execResetDeassert
  split
  · exact next (hs.of_ports (by rfl))
  · exact hs.next

end State.HirqFollows

/-- Device reset deasserts every line and clears every enable (section 9.5). -/
theorem State.reset_hirqFollows : State.reset.HirqFollows := by
  rw [State.hirqFollows_iff]
  intro h
  rw [State.port, State.reset, PerHost.get_all]
  exact HostPort.initial_lineFollows

theorem execDeviceReset_linesFollow (s : State) : LinesFollowAfter (execDeviceReset s) :=
  State.HirqFollows.next (State.reset_hirqFollows.of_ports (by rfl))

/-- Every command keeps each interrupt line equal to its condition (R139). -/
theorem exec_linesFollow {s : State} (hs : s.HirqFollows) (i : Instr) : LinesFollowAfter (exec i s) := by
  unfold exec
  cases i with
  | alloc => exact hs.taking fun h d _ hu => hu.allocEffect h d
  | cancelAlloc => exact hs.taking fun h d _ hu => hu.cancelAllocEffect h d
  | setLabel => exact hs.taking fun h d _ hu => hu.setLabelEffect h d
  | setInherit => exact hs.taking fun h d _ hu => hu.setInheritEffect h d
  | queryFrame => exact hs.taking fun h d _ hu => hu.queryFrameEffect h d
  | free => exact hs.taking fun h d _ hu => hu.freeEffect h d
  | grant => exact hs.taking fun h d _ hu => hu.grantEffect h d
  | revoke => exact hs.taking fun h d _ hu => hu.revokeEffect h d
  | release => exact hs.taking fun h d _ hu => hu.releaseEffect h d
  | offer => exact hs.taking fun h d _ hu => hu.offerEffect h d
  | accept => exact hs.taking fun h d _ hu => hu.acceptEffect h d
  | decline => exact hs.taking fun h d _ hu => hu.declineEffect h d
  | withdraw => exact hs.taking fun h d _ hu => hu.withdrawEffect h d
  | setWindow => exact hs.taking fun h d _ hu => hu.setWindowEffect h d
  | clearWindow => exact hs.taking fun h d _ hu => hu.clearWindowEffect h d
  | mapSlot => exact hs.taking fun h d _ hu => hu.mapSlotEffect h d
  | unmapSlot => exact hs.taking fun h d _ hu => hu.unmapSlotEffect h d
  | queryHost => exact hs.taking fun h d _ hu => hu.complete h d.tag d.code .ok _
  | leave => exact hs.taking fun h d _ hu => hu.startDeparture h (.leave d.tag)
  | badCommand => exact hs.taking fun h d _ hu => hu.finish h d .badCommand
  | staging h w => exact hs.portAccess h fun _ hp => hp
  | submit h w => exact hs.portAccess h fun _ hp => hp.submitted
  | join h w => exact hs.execJoin h w
  | eventPop h len => exact hs.execEventPop h len
  | faultPop h len => exact hs.execFaultPop h len
  | noticeLostClear h w => exact hs.portAccess h fun _ hp => hp.clearNoticeLost _
  | intEnable h w => exact hs.portAccess h fun _ hp => hp.setEnables _
  | controlWrite h w => exact hs.next
  | dataRequestArrival h r => exact hs.execDataRequestArrival h r
  | poolGrant => exact hs.execPoolGrant
  | scrubWritePerformed => exact hs.execScrubWritePerformed
  | readPerformed e0 e1 => exact hs.execReadPerformed e0 e1
  | writePerformed e0 e1 => exact hs.execWritePerformed e0 e1
  | drainCheck h f => exact hs.execDrainCheck h f
  | graceExpiry id => exact (hs.graceExpiry id.val).next
  | offerExpiry slot => exact (hs.offerExpiry slot.val).next
  | tick => exact hs.execTick
  | loadTimeout => exact hs.loadTimeout.next
  | imageReceived image => exact hs.execImageReceived image
  | linkUp h => exact hs.execLinkUp h
  | linkDown h => exact hs.execLinkDown h
  | drainPhaseEnd h => exact hs.execDrainPhaseEnd h
  | sweepStep h => exact hs.execSweepStep h
  | deviceReset => exact execDeviceReset_linesFollow s
  | resetDeassert strap => exact hs.execResetDeassert strap

/-- Settles O55: a step idles or is the front command on the state with the queue's rest, whose ports are the same. -/
theorem interruptLinesFollow : Obligations.InterruptLinesFollow := by
  intro s t hs ht
  unfold step at ht
  split at ht
  · exact hs.next t ht
  · exact exec_linesFollow (hs.of_ports (by rfl)) _ t ht

end Sys2Proof.Machine
end

section
/-! SUPPORT. What the searches of the tables find (R32, R44, R45, R70, R153). -/

namespace Sys2Proof.Machine

set_option Elab.async false

/-! ### Searches of a run of numbers -/

theorem find?_range_eq_some_iff {n i : Nat} {p : Nat → Bool} :
    (List.range n).find? p = some i ↔ i < n ∧ p i = true ∧ ∀ j < i, p j = false := by
  simp [List.find?_range_eq_some, and_left_comm]

theorem find?_range_eq_none_iff {n : Nat} {p : Nat → Bool} :
    (List.range n).find? p = none ↔ ∀ i < n, p i = false := by
  simp [List.find?_eq_none]

variable {s : State}

/-! ### The Offer Table and the Recall Table -/

theorem State.freeOfferSlot_eq_some_iff {i : Nat} :
    s.freeOfferSlot = some i ↔ i < 8 ∧ (s.offerSlot i).offer = none ∧ ∀ j < i, (s.offerSlot j).offer ≠ none := by
  rw [State.freeOfferSlot, find?_range_eq_some_iff]
  simp [Option.ne_none_iff_isSome]

theorem State.freeOfferSlot_eq_none_iff : s.freeOfferSlot = none ↔ ∀ i < 8, (s.offerSlot i).offer ≠ none := by
  rw [State.freeOfferSlot, find?_range_eq_none_iff]
  simp [Option.ne_none_iff_isSome]

theorem State.freeRecordId_eq_some_iff {id : Nat} :
    s.freeRecordId = some id ↔ id < 16 ∧ s.record id = none ∧ ∀ j < id, s.record j ≠ none := by
  rw [State.freeRecordId, find?_range_eq_some_iff]
  simp [Option.ne_none_iff_isSome]

theorem State.freeRecordId_eq_none_iff : s.freeRecordId = none ↔ ∀ id < 16, s.record id ≠ none := by
  rw [State.freeRecordId, find?_range_eq_none_iff]
  simp [Option.ne_none_iff_isSome]

theorem State.openOffer_eq_some_iff {hd : Handle} {o : Offer} :
    s.openOffer hd = some o ↔ hd.slot < 8 ∧ s.offerSlot hd.slot = ⟨hd.serial, some o⟩ := by
  unfold State.openOffer
  rcases s.offerSlot hd.slot with ⟨serial, offer⟩
  simp [and_assoc]

theorem RecallRecord.undrained_iff {r : RecallRecord} {h : HostId} :
    r.undrained h = true ↔ r.targets.get h = some .notice ∨ r.targets.get h = some .closing := by
  simp [RecallRecord.undrained]

theorem RecallRecord.undrained_eq_false_iff {r : RecallRecord} {h : HostId} :
    r.undrained h = false ↔ r.targets.get h ≠ some .notice ∧ r.targets.get h ≠ some .closing := by
  simp [RecallRecord.undrained]

/-- What `recallOf` asks of a record id: a record on the frame with the host not yet DRAINED. -/
def State.recalls? (s : State) (f : Nat) (h : HostId) (id : Nat) : Bool :=
  match s.record id with
  | some r => decide (r.frame = f) && r.undrained h
  | none => false

theorem State.recallOf_eq_find (f : Nat) (h : HostId) :
    s.recallOf f h = (List.range Config.recallCount).find? (s.recalls? f h) := rfl

theorem State.recalls?_iff {f : Nat} {h : HostId} {id : Nat} :
    s.recalls? f h id = true ↔ ∃ r, s.record id = some r ∧ r.frame = f ∧ r.undrained h = true := by
  unfold State.recalls?
  rcases s.record id with _ | r <;> simp

theorem State.recallOf_some {f : Nat} {h : HostId} {id : Nat} (hid : s.recallOf f h = some id) :
    id < 16 ∧ ∃ r, s.record id = some r ∧ r.frame = f ∧ r.undrained h = true := by
  rw [State.recallOf_eq_find, find?_range_eq_some_iff] at hid
  exact ⟨hid.1, State.recalls?_iff.mp hid.2.1⟩

theorem State.recallOf_eq_none_iff {f : Nat} {h : HostId} :
    s.recallOf f h = none ↔ ∀ id r, id < 16 → s.record id = some r → r.frame = f → r.undrained h = false := by
  rw [State.recallOf_eq_find, find?_range_eq_none_iff]
  constructor
  · intro hn id r hid hr hf
    by_contra hu
    exact absurd (State.recalls?_iff.mpr ⟨r, hr, hf, by simpa using hu⟩) (by simp [hn id hid])
  · intro hn id hid
    by_contra hu
    obtain ⟨r, hr, hf, hun⟩ := State.recalls?_iff.mp (by simpa using hu)
    simp [hn id r hid hr hf] at hun

/-! ### The heir -/

/-- The host may inherit the frame from departing host `h` (R153). -/
def State.Inherits (s : State) (f : Nat) (h k : HostId) : Prop :=
  k ≠ h ∧ (s.port k).portState = .member ∧ (s.frame f).access.get k = .rw ∧
    s.owned.get k + s.waiting.get k < s.quotaOf k

/-- A search of the hosts finds the lowest-numbered one that qualifies. -/
theorem find?_hosts_eq_some {p : HostId → Bool} {k : HostId} (hk : hosts.find? p = some k) :
    p k = true ∧ ∀ j < k, p j = false := by
  obtain ⟨found, before, after, split, failed⟩ := List.find?_eq_some_iff_append.mp hk
  have rising : (before ++ k :: after).Pairwise (· < ·) := split ▸ (by decide : hosts.Pairwise (· < ·))
  have above : ∀ i ∈ after, k < i := fun i => List.rel_of_pairwise_cons (List.pairwise_append.mp rising).2.1
  refine ⟨found, fun j hj => ?_⟩
  have place : j ∈ before ++ k :: after := split ▸ mem_hosts j
  rcases List.mem_append.mp place with early | late
  · simpa using failed j early
  · rcases List.mem_cons.mp late with rfl | later
    · exact absurd hj (lt_irrefl j)
    · exact absurd hj (lt_asymm (above j later))

theorem State.heirOf_test_iff (f : Nat) (h k : HostId) :
    (decide (k ≠ h) && s.isMember k && decide ((s.frame f).access.get k = .rw)
      && decide (s.owned.get k + s.waiting.get k < s.quotaOf k)) = true ↔ s.Inherits f h k := by
  simp [State.Inherits, State.isMember, and_assoc]

theorem State.heirOf_some {f : Nat} {h k : HostId} (hk : s.heirOf f h = some k) :
    s.Inherits f h k ∧ ∀ j < k, ¬ s.Inherits f h j := by
  obtain ⟨found, lower⟩ := find?_hosts_eq_some hk
  refine ⟨(State.heirOf_test_iff f h k).mp found, fun j hj hin => ?_⟩
  exact absurd ((State.heirOf_test_iff f h j).mpr hin) (by rw [lower j hj]; simp)

theorem State.heirOf_none {f : Nat} {h : HostId} (hn : s.heirOf f h = none) (j : HostId) : ¬ s.Inherits f h j :=
  fun hin => List.find?_eq_none.mp hn j (mem_hosts j) ((State.heirOf_test_iff f h j).mpr hin)

/-- Settles O19: each search is a search of a run of numbers, or of the four hosts, from the lowest. -/
theorem searchesFindTheLowest : Obligations.SearchesFindTheLowest := by
  intro s
  refine ⟨fun _ => State.freeOfferSlot_eq_some_iff, State.freeOfferSlot_eq_none_iff,
    fun _ => State.freeRecordId_eq_some_iff, State.freeRecordId_eq_none_iff, fun _ _ => State.openOffer_eq_some_iff,
    fun f h id hid => ?_, fun f h => ?_, fun f h k hk => ?_, fun f h hn j hj hm ha => ?_⟩
  · obtain ⟨hlt, r, hr, hf, hu⟩ := State.recallOf_some hid
    exact ⟨hlt, r, hr, hf, RecallRecord.undrained_iff.mp hu⟩
  · simp only [State.recallOf_eq_none_iff, RecallRecord.undrained_eq_false_iff]
  · obtain ⟨⟨hne, hm, ha, hq⟩, lower⟩ := State.heirOf_some hk
    refine ⟨hne, hm, ha, hq, fun j hj hjh hjm hja => ?_⟩
    exact Nat.not_lt.mp fun hlt => lower j hj ⟨hjh, hjm, hja, hlt⟩
  · exact Nat.not_lt.mp fun hlt => State.heirOf_none hn j ⟨hj, hm, ha, hlt⟩

end Sys2Proof.Machine
end

section
/-! SUPPORT. What a command can do to the state, said once for all the laws: every command is a run of the acts listed here,
each with what the block has made sure of when it acts. A law is kept by every step when each act keeps it. -/

namespace Sys2Proof.Machine

set_option Elab.async false

/-! ### Acts -/

/-- What can become of a port in its port state and link state: records posted, reported and popped, messages sent, and the
control accesses of its host. -/
inductive HostPort.Act (p : HostPort) : HostPort → Prop
  | postNotice (e : Event) : Act p (p.postNotice e)
  | postCompletion (e : Event) : Act p (p.postCompletion e)
  | reportFault (r : FaultRecord) (hr : r.suppressed = 0) : Act p (p.reportFault r)
  | send (m : LinkMessage) : Act p (p.send m)
  | submitted : Act p p.submitted
  | popEvent (len : Nat) : Act p (p.popEvent len)
  | popFault (len : Nat) : Act p (p.popFault len)
  | clearNoticeLost (v : Option Byte) : Act p (p.clearNoticeLost v)
  | setEnables (v : Option Byte) : Act p (p.setEnables v)
  | stage (w : ControlWrite) : Act p { p with staging := stagingAfter w p.staging }
  | joinAnswered (st : JoinStatus) : Act p { p with joinStatus := st }

/-- What a command makes sure of before it creates a record (R44, R45, R51): a free id, a member that asks, a deadline that
is a grace after the counter, and, if the state was lawful, neither an open offer on the frame nor a record that withdraws
the access of one of the new targets. -/
structure State.MayOpen (lawful : Prop) (s : State) (id : Nat) (r : RecallRecord) : Prop where
  room : id < Config.recallCount
  unused : s.record id = none
  member : ∃ h, (s.port h).portState = .member
  deadline : ∀ dl, r.deadline = some dl → ∃ time ≤ 65535, dl = deadlineAfter s.tick (s.graceOf time)
  unoffered : lawful → (s.frame r.frame).offer = none
  alone : lawful → ∀ j q k, s.record j = some q → q.frame = r.frame → r.undrained k = true → q.undrained k = false

/-- What holds of every change of a record: its frame stays, no target is undrained anew, the deadline stays or ceases. -/
structure RecallRecord.Advances (old new : RecallRecord) : Prop where
  frame : new.frame = old.frame
  undrained : ∀ k, new.undrained k = true → old.undrained k = true
  deadline : new.deadline = old.deadline ∨ new.deadline = none

/-- What OFFER makes sure of before it opens an offer in a slot (R72, R73). -/
structure State.MayOffer (s : State) (i : Nat) (o : Offer) : Prop where
  room : i < Config.offerCount
  unused : (s.offerSlot i).offer = none
  member : ∃ h, (s.port h).portState = .member
  deadline : ∃ time ≤ 65535, o.deadline = deadlineAfter s.tick (s.lifetimeOf time)
  unoffered : (s.frame o.frame).offer = none
  unrecalled : (s.frame o.frame).recallSet = []

/-- Nothing is due at the counter as it stands (R160, R165). -/
structure State.NothingDue (s : State) : Prop where
  load : s.load = .loading → s.tick.toNat ≠ Config.loadTimeoutTick
  record : ∀ id r dl, id < Config.recallCount → s.record id = some r → r.deadline = some dl →
    deadlineReached s.tick dl = false
  offer : ∀ i o, i < Config.offerCount → (s.offerSlot i).offer = some o → deadlineReached s.tick o.deadline = false

/-- Allocation service without its completion (R21). -/
def State.allocated (s : State) (h : HostId) (count : Nat) (label : Option (BitVec 16)) (inh : Bool) : State :=
  ({ s with freeList := s.freeList.drop count, owned := s.owned.set h (s.owned.get h + count) } : State).allocateAll h
    label inh (s.freeList.take count)

/-- The head of the Allocation Wait List served, without its completion (R23). -/
def State.servedHead (s : State) (e : WaitEntry) (rest : List WaitEntry) : State :=
  ({ s with waitList := rest, waiting := s.waiting.set e.host 0 } : State).allocated e.host e.count e.label
    e.inheritFlag

/-- The end of a frame's scrub before the wait list is served (R18). -/
def State.scrubbed (s : State) (f : Nat) (rest : List Nat) : State :=
  { s.setFrame f { s.frame f with state := .free, damaged := false } with
    scrubQueue := rest, scrubPos := 0, freeList := s.freeList ++ [f] }

/-- A record entered in the Recall Table and in the recall set of its frame, with its closing flags and drain checks, before
any notice (R44, R47). -/
def State.recorded (s : State) (id : Nat) (r : RecallRecord) : State :=
  (s.updFrame r.frame (fun fr => { fr with recallSet := joinRecallSet id fr.recallSet })).moveRecord id
    { r with targets := PerHost.all none } r

/-- A record removed from the Recall Table and from the recall set of its frame (R50). -/
def State.unrecorded (s : State) (id f : Nat) : State :=
  (s.setRecord id none).updFrame f (fun fr => { fr with recallSet := fr.recallSet.filter (fun j => j != id) })

/-- An offer entered in its slot and its frame (R73). -/
def State.offered (s : State) (i : Nat) (o : Offer) : State :=
  (s.setOfferSlot i ⟨(s.offerSlot i).serial, some o⟩).updFrame o.frame
    (fun fr => { fr with offer := some ⟨i, (s.offerSlot i).serial⟩ })

/-- The departing host's own port, unit and departure record at the start of its departure (R147). -/
def State.departing (s : State) (h : HostId) (linkUp : Bool) (cause : Cause) : State :=
  { (s.setPort h { (s.port h).startLeaving with linkUp := linkUp }).setUnit h
      { s.unit h with windows := [], slots := [] } with
    departures := s.departures.set h (some ⟨cause, .draining⟩) }

/-- The departing host's own port and departure record at the end of its departure (R156). -/
def State.departed (s : State) (h : HostId) (cause : Cause) : State :=
  { s.setPort h ((s.port h).endLeaving cause) with departures := s.departures.set h none }

/-- One act of the block on its state. `lawful` is what is assumed of the state in which the command began. -/
inductive State.Act (lawful : Prop) (s : State) : State → Prop
  | control {t : State} (ht : t = { s with
      cmdPointer := t.cmdPointer, drainChecks := t.drainChecks, job := t.job, portPointer := t.portPointer
      fresh := t.fresh }) : Act lawful s t
  | port (h : HostId) {p : HostPort} (hp : (s.port h).Act p) : Act lawful s (s.setPort h p)
  | take {h : HostId} {raw : List Byte} (hp : s.picked = some (h, raw)) : Act lawful s (s.beginTaking h)
  | writeBlock (b : Nat) (g : Nat → Byte) : Act lawful s (s.writeBlock b g)
  | noteError (b : Nat) (e : BlockError) : Act lawful s (s.noteError b e)
  | turn (n : Nat) (hn : s.turn ≤ 16 → n ≤ 16) : Act lawful s { s with turn := n }
  | scrubPos (n : Nat) (hn : n < Config.blocksPerFrame) : Act lawful s { s with scrubPos := n }
  | ort (h : HostId) (l : List OrtEntry) (hl : ((s.unit h).ort.map (·.tag)).Nodup → (l.map (·.tag)).Nodup) :
      Act lawful s (s.setUnit h { s.unit h with ort := l })
  | window (h : HostId) (i : Nat) (w : Option Window) (hm : (s.port h).portState = .member) :
      Act lawful s (s.updUnit h (·.setWindow i w))
  | slot (h : HostId) (i : Nat) (sl : Option Slot) (hm : (s.port h).portState = .member) :
      Act lawful s (s.updUnit h (·.setSlot i sl))
  | frame (f : Nat) (r : FrameRecord) (hstate : r.state = (s.frame f).state) (hoffer : r.offer = (s.frame f).offer)
      (hset : r.recallSet = (s.frame f).recallSet) : Act lawful s (s.setFrame f r)
  | freeing (f : Nat) (hheld : (s.frame f).state = .held) :
      Act lawful s (s.setFrame f { s.frame f with state := .freeing })
  | allocate (h : HostId) (count : Nat) (label : Option (BitVec 16)) (inh : Bool)
      (hq : s.owned.get h + s.waiting.get h + count ≤ s.quotaOf h) : Act lawful s (s.allocated h count label inh)
  | serveHead {e : WaitEntry} {rest : List WaitEntry} (hw : s.waitList = e :: rest) :
      Act lawful s (s.servedHead e rest)
  | wait (h : HostId) (d : Desc) (hn : s.waitEntry h = none)
      (hq : s.owned.get h + s.waiting.get h + d.count ≤ s.quotaOf h) : Act lawful s (s.joinWaitList h d)
  | unwait (h : HostId) : Act lawful s (s.removeWaiting h)
  | enterScrubbing (f : Nat) : Act lawful s (s.enterScrubbing f)
  | scrubbed {f : Nat} {rest : List Nat} (hq : s.scrubQueue = f :: rest) : Act lawful s (s.scrubbed f rest)
  | lowerOwned (owner : Option HostId) : Act lawful s (s.lowerOwned owner)
  | raiseOwned (h : HostId) (hq : s.owned.get h + s.waiting.get h < s.quotaOf h) :
      Act lawful s { s with owned := s.owned.set h (s.owned.get h + 1) }
  | record (id : Nat) (r : RecallRecord) (hr : s.MayOpen lawful id r) : Act lawful s (s.recorded id r)
  | move {id : Nat} {old new : RecallRecord} (hid : s.record id = some old) (hnew : old.Advances new) :
      Act lawful s (s.moveRecord id old new)
  | unrecord {id : Nat} {r : RecallRecord} (hid : s.record id = some r) : Act lawful s (s.unrecorded id r.frame)
  | offer (i : Nat) (o : Offer) (ho : s.MayOffer i o) : Act lawful s (s.offered i o)
  | removeOffer {i : Nat} {o : Offer} (ho : (s.offerSlot i).offer = some o) : Act lawful s (s.removeOffer i o)
  | departure (h : HostId) (d : Option Departure) (hd : d = none ↔ s.departures.get h = none) :
      Act lawful s { s with departures := s.departures.set h d }
  | depart (h : HostId) (linkUp : Bool) (cause : Cause) (hm : (s.port h).portState = .member) :
      Act lawful s (s.departing h linkUp cause)
  | endDeparture (h : HostId) (cause : Cause) (hd : s.departures.get h ≠ none) : Act lawful s (s.departed h cause)
  | join (h : HostId) (hp : (s.port h).portState = .attached) (hl : s.load ≠ .loading) (hr : s.resetAsserted = false) :
      Act lawful s (s.setPort h { s.port h with portState := .member, joinStatus := .joined })
  | linkUp (h : HostId) (hr : s.resetAsserted = false) (hl : (s.port h).linkUp = false) : Act lawful s (s.linkComesUp h)
  | detach (h : HostId) (hp : (s.port h).portState = .attached) :
      Act lawful s (s.setPort h { (s.port h).clearLists with portState := .down, linkUp := false })
  | leavingLinkDown (h : HostId) (hp : (s.port h).portState = .leaving) :
      Act lawful s (s.setPort h { s.port h with linkUp := false })
  | configure (l : LoadState) (c : Configuration) (hr : s.resetAsserted = false) (hload : s.load = .loading)
      (hl : l ≠ .loading) (hg : c.grace ≤ 65535) (ht : c.lifetime ≤ 65535) : Act lawful s (s.enterConfiguration l c)
  | tick (hr : s.resetAsserted = false) (hdue : s.NothingDue) : Act lawful s { s with tick := s.tick + 1 }
  | reset : Act lawful s { State.reset with
      pending := s.pending, resetCount := s.resetCount + 1, fresh := s.fresh }
  | release (strap : BitVec 2) (hr : s.resetAsserted = true) : Act lawful s { s with
      resetAsserted := false, strap := strap, tick := 0, load := .loading, config := none, promSelect := true }

/-- A run of acts. -/
def State.Acts (lawful : Prop) (s t : State) : Prop := Relation.ReflTransGen (State.Act lawful) s t

/-- What every act keeps, given what may be assumed, is kept by a run of acts. -/
theorem State.Acts.keep {lawful : Prop} {I : State → Prop} (hI : ∀ s t, State.Act lawful s t → I s → I t) {s t : State}
    (hst : s.Acts lawful t) (hs : I s) : I t := by
  induction hst with
  | refl => exact hs
  | tail _ hact ih => exact hI _ _ hact ih

end Sys2Proof.Machine
end

section
/-! SUPPORT. What the searches, the changes of a record and the drains leave as it was, as far as the acts ask for it. -/

namespace Sys2Proof.Machine

set_option Elab.async false

/-! ### Changes of a record -/

theorem RecallRecord.follow_undrained (r : RecallRecord) (k : HostId) : r.follow.undrained k = r.undrained k := by
  rw [Bool.eq_iff_iff, RecallRecord.undrained_iff, RecallRecord.undrained_iff, RecallRecord.follow_targets]
  split
  · next h => simp [h.2.2.1]
  · rfl

theorem RecallRecord.follow_deadline_or (r : RecallRecord) :
    r.follow.deadline = r.deadline ∨ r.follow.deadline = none := by
  rw [RecallRecord.follow_deadline]
  split
  · exact Or.inl rfl
  · exact Or.inr rfl

@[simp] theorem RecallRecord.follow_frame (r : RecallRecord) : r.follow.frame = r.frame := by
  rw [RecallRecord.follow_eq]

/-- A record whose chosen targets have left NOTICE, before the rest follows. -/
def RecallRecord.closeChosen (r : RecallRecord) (sel : HostId → Bool) : RecallRecord :=
  { r with targets := PerHost.make (fun k =>
      if r.targets.get k = some Phase.notice ∧ sel k = true then some Phase.closing else r.targets.get k) }

theorem RecallRecord.close_eq (r : RecallRecord) (sel : HostId → Bool) : r.close sel = (r.closeChosen sel).follow := rfl

theorem RecallRecord.closeChosen_undrained (r : RecallRecord) (sel : HostId → Bool) (k : HostId) :
    (r.closeChosen sel).undrained k = r.undrained k := by
  rw [Bool.eq_iff_iff, RecallRecord.undrained_iff, RecallRecord.undrained_iff, RecallRecord.closeChosen,
    PerHost.get_make]
  split
  · next h => simp [h.1]
  · rfl

theorem RecallRecord.close_undrained (r : RecallRecord) (sel : HostId → Bool) (k : HostId) :
    (r.close sel).undrained k = r.undrained k := by
  rw [RecallRecord.close_eq, RecallRecord.follow_undrained, RecallRecord.closeChosen_undrained]

@[simp] theorem RecallRecord.close_frame (r : RecallRecord) (sel : HostId → Bool) : (r.close sel).frame = r.frame :=
  RecallRecord.follow_frame _

theorem RecallRecord.close_advances (r : RecallRecord) (sel : HostId → Bool) : r.Advances (r.close sel) where
  frame := r.close_frame sel
  undrained k hk := by rwa [RecallRecord.close_undrained] at hk
  deadline := (r.closeChosen sel).follow_deadline_or

theorem RecallRecord.upgrade_advances (r : RecallRecord) :
    r.Advances ({ r with forced := true }.close (fun _ => true)) where
  frame := RecallRecord.close_frame _ _
  undrained k hk := by rwa [RecallRecord.close_undrained] at hk
  deadline := RecallRecord.follow_deadline_or _

/-- The record after the drain of a target (R49). -/
def RecallRecord.drained (r : RecallRecord) (h : HostId) : RecallRecord := (r.setPhase h .drained).follow

theorem RecallRecord.drained_undrained (r : RecallRecord) (h k : HostId) :
    (r.drained h).undrained k = (decide (k ≠ h) && r.undrained k) := by
  rw [RecallRecord.drained, RecallRecord.follow_undrained]
  by_cases hk : k = h <;> simp [RecallRecord.undrained, RecallRecord.setPhase, hk]

theorem RecallRecord.drained_advances (r : RecallRecord) (h : HostId) : r.Advances (r.drained h) where
  frame := RecallRecord.follow_frame _
  undrained k hk := by
    rw [RecallRecord.drained_undrained] at hk
    exact (Bool.and_eq_true_iff.mp hk).2
  deadline := (r.setPhase h .drained).follow_deadline_or

/-! ### Notices -/

@[simp] theorem State.notify_portState (s : State) (h k : HostId) (e : Event) :
    ((s.notify h e).port k).portState = (s.port k).portState := by
  rw [State.notify_eq, State.setPort_port]
  split
  · next hk => rw [hk, HostPort.postNotice_portState]
  · rfl

@[simp] theorem State.notifyAll_portState (s : State) (l : List HostId) (k : HostId) (e : Event) :
    ((s.notifyAll l e).port k).portState = (s.port k).portState := by
  induction l generalizing s with
  | nil => rfl
  | cons h rest ih => exact (ih (s.notify h e)).trans (s.notify_portState h k e)

/-- Notices and the departure records do not meet. -/
theorem State.notifyAll_setDepartures (s : State) (d : PerHost (Option Departure)) (l : List HostId) (e : Event) :
    ({ s with departures := d } : State).notifyAll l e = { s.notifyAll l e with departures := d } := by
  induction l generalizing s with
  | nil => rfl
  | cons h rest ih => exact ih (s.notify h e)

/-- The notice of a drain changes nothing but the ports. -/
theorem State.drainNotice_eq (s : State) (r : RecallRecord) (h : HostId) :
    s.drainNotice r h = { s with ports := (s.drainNotice r h).ports } := by
  unfold State.drainNotice
  split
  · rfl
  · split <;> rfl
  · rfl
  · split <;> rfl

/-- The notice of a drain, unless the drain is quiet (R49, R69). -/
def State.noticeUnless (s : State) (quiet : Bool) (r : RecallRecord) (h : HostId) : State :=
  if quiet then s else s.drainNotice r h

theorem State.noticeUnless_eq (s : State) (quiet : Bool) (r : RecallRecord) (h : HostId) :
    s.noticeUnless quiet r h = { s with ports := (s.noticeUnless quiet r h).ports } := by
  unfold State.noticeUnless
  split
  · rfl
  · exact s.drainNotice_eq r h

/-! ### The parts of a drain -/

/-- The state after a target is drained and its notice posted, before the record is found complete (R49). -/
def State.drainedTarget (s : State) (id : Nat) (r : RecallRecord) (h : HostId) (quiet : Bool) : State :=
  ((s.moveRecord id r (r.drained h)).updFrame r.frame (fun fr =>
    { fr with access := fr.access.set h .none, closing := fr.closing.set h false })).noticeUnless quiet r h

theorem State.drainTarget_eq (s : State) (id : Nat) (r : RecallRecord) (h : HostId) (quiet : Bool) :
    s.drainTarget id r h quiet =
      if (r.drained h).allDrained then (s.drainedTarget id r h quiet).completeRecord id (r.drained h)
      else s.drainedTarget id r h quiet := rfl

/-- Beside the ports, a drained target changes the frame, the record and the drain checks alone. -/
theorem State.drainedTarget_eq (s : State) (id : Nat) (r : RecallRecord) (h : HostId) (quiet : Bool) :
    s.drainedTarget id r h quiet =
      { s with
        ports := (s.drainedTarget id r h quiet).ports, frames := (s.drainedTarget id r h quiet).frames
        recalls := (s.drainedTarget id r h quiet).recalls
        drainChecks := (s.drainedTarget id r h quiet).drainChecks } := by
  obtain ⟨ports, told⟩ : ∃ ports, s.drainedTarget id r h quiet =
      { (s.moveRecord id r (r.drained h)).updFrame r.frame (fun fr =>
        { fr with access := fr.access.set h .none, closing := fr.closing.set h false }) with ports := ports } :=
    ⟨_, State.noticeUnless_eq _ quiet r h⟩
  obtain ⟨frames, recalls, checks, moved⟩ : ∃ frames recalls checks, s.moveRecord id r (r.drained h) =
      { s with frames := frames, recalls := recalls, drainChecks := checks } :=
    ⟨_, _, _, s.moveRecord_eq id r (r.drained h)⟩
  rw [told, moved]
  rfl

theorem State.drainedTarget_record (s : State) (id : Nat) (r : RecallRecord) (h : HostId) (quiet : Bool) (j : Nat) :
    (s.drainedTarget id r h quiet).record j = if j = id then some (r.drained h) else s.record j := by
  rw [State.drainedTarget, State.noticeUnless_eq]
  exact State.moveRecord_record s id r (r.drained h) j

/-- The completion of a record: the record removed, a FREE's frame into SCRUBBING, the requester's completion (R50, R68). -/
theorem State.completeRecord_eq (s : State) (id : Nat) (r : RecallRecord) :
    s.completeRecord id r =
      (if r.purpose = .free then (s.unrecorded id r.frame).enterScrubbing r.frame
        else s.unrecorded id r.frame).complete r.requester r.tag r.purpose.code .ok .none := rfl

/-! ### Departure records under drains -/

@[simp] theorem State.enterScrubbing_departures (s : State) (f : Nat) :
    (s.enterScrubbing f).departures = s.departures := by rw [State.enterScrubbing_eq]

theorem State.drainTarget_departures (s : State) (id : Nat) (r : RecallRecord) (h : HostId) (quiet : Bool) :
    (s.drainTarget id r h quiet).departures = s.departures := by
  have drained : (s.drainedTarget id r h quiet).departures = s.departures := by rw [State.drainedTarget_eq]
  rw [State.drainTarget_eq]
  split
  · rw [State.completeRecord_eq]
    split
    · exact (State.enterScrubbing_departures _ _).trans drained
    · exact drained
  · exact drained

/-- The access and the closing flag of a host whose access a sweep has closed, and its notice (R154). -/
def State.sweptHost (s : State) (h : HostId) (f : Nat) : State :=
  (s.updFrame f (fun fr => { fr with access := fr.access.set h .none, closing := fr.closing.set h false })).notify h
    (.revoked f .depart)

theorem State.drainSwept_eq (s : State) (h : HostId) (f : Nat) (o : HostId) :
    s.drainSwept h f o =
      if ((s.sweptHost h f).frame f).holders (fun k => decide (k = o)) = [] then
        { (s.sweptHost h f).enterScrubbing f with
          departures := s.departures.set o
            ((s.departures.get o).map (fun d => { d with phase := .sweeping f false })) }
      else s.sweptHost h f := by
  unfold State.drainSwept
  show (if ((s.sweptHost h f).frame f).holders (fun k => decide (k = o)) = [] then
      { (s.sweptHost h f).enterScrubbing f with
        departures := ((s.sweptHost h f).enterScrubbing f).departures.set o
          ((((s.sweptHost h f).enterScrubbing f).departures.get o).map
            (fun d => { d with phase := .sweeping f false })) }
    else s.sweptHost h f) = _
  rw [State.enterScrubbing_departures]
  rfl

/-- A drain of a swept access neither begins nor ends a departure. -/
theorem State.drainSwept_departing (s : State) (h : HostId) (f : Nat) (o k : HostId) :
    (s.drainSwept h f o).departures.get k = none ↔ s.departures.get k = none := by
  rw [State.drainSwept_eq]
  split
  · show (s.departures.set o _).get k = none ↔ _
    rw [PerHost.get_set]
    split
    · next hk => simp [hk]
    · rfl
  · rfl

theorem State.settleDeparting_departing (s : State) (h : HostId) (f : Nat) (k : HostId) :
    (s.settleDeparting h f).departures.get k = none ↔ s.departures.get k = none := by
  unfold State.settleDeparting
  split
  · split
    · split
      · rfl
      · rw [State.drainTarget_departures]
    · rfl
  · split
    · split
      · exact s.drainSwept_departing h f _ k
      · rfl
    · rfl

theorem State.settleAll_departing (s : State) (h : HostId) (l : List Nat) (k : HostId) :
    (l.foldl (fun s f => s.settleDeparting h f) s).departures.get k = none ↔ s.departures.get k = none := by
  induction l generalizing s with
  | nil => rfl
  | cons f l ih => exact (ih _).trans (s.settleDeparting_departing h f k)

/-! ### Pool blocks -/

/-- A write of a pool block changes pool memory and the ECC conditions alone. -/
theorem State.writeBlock_parts (s : State) (b : Nat) (g : Nat → Byte) :
    ∃ mem blocks, s.writeBlock b g = { s with mem := mem, blocks := blocks } := ⟨_, _, rfl⟩

/-- To enter a record changes its frame, the Recall Table and the drain checks alone. -/
theorem State.recorded_parts (s : State) (id : Nat) (r : RecallRecord) :
    ∃ frames recalls checks, s.recorded id r =
      { s with frames := frames, recalls := recalls, drainChecks := checks } :=
  ⟨_, _, _, State.moveRecord_eq _ id _ r⟩

/-! ### What remains due -/

/-- The record's deadline is present and reached (R52). -/
def State.RecordDue (s : State) (id : Nat) : Prop :=
  ∃ r dl, s.record id = some r ∧ r.deadline = some dl ∧ deadlineReached s.tick dl = true

/-- A record closed to the last target has no deadline. -/
theorem RecallRecord.closeAll_deadline (r : RecallRecord) : (r.close (fun _ => true)).deadline = none := by
  have chosen : ∀ k, (r.closeChosen fun _ => true).targets.get k ≠ some .notice := by
    intro k
    rw [RecallRecord.closeChosen, PerHost.get_make]
    split
    · simp
    · next hne => exact fun hk => hne ⟨hk, rfl⟩
  rw [RecallRecord.close_eq, RecallRecord.follow_deadline, if_neg]
  rintro ⟨k, hk⟩
  rw [RecallRecord.follow_targets] at hk
  split at hk
  · cases hk
  · exact chosen k hk

/-- A grace expiry makes nothing due, and its own record is not due after it. -/
theorem State.graceExpiry_due {s : State} {id j : Nat} (hdue : (s.graceExpiry id).RecordDue j) :
    s.RecordDue j ∧ j ≠ id := by
  unfold State.graceExpiry at hdue
  split at hdue
  · next r hr =>
    split at hdue
    · next dl hdl =>
      split at hdue
      · obtain ⟨q, e, hq, he, hreached⟩ := hdue
        rw [State.moveRecord_record] at hq
        split at hq
        · cases hq
          rw [RecallRecord.closeAll_deadline] at he
          cases he
        · next hj => exact ⟨⟨q, e, hq, he, hreached⟩, hj⟩
      · next hnot =>
        refine ⟨hdue, ?_⟩
        rintro rfl
        obtain ⟨q, e, hq, he, hreached⟩ := hdue
        rw [hr] at hq
        cases hq
        rw [hdl] at he
        cases he
        exact hnot hreached
    · next hdl =>
      refine ⟨hdue, ?_⟩
      rintro rfl
      obtain ⟨q, e, hq, he, -⟩ := hdue
      rw [hr] at hq
      cases hq
      rw [hdl] at he
      cases he
  · next hr =>
    refine ⟨hdue, ?_⟩
    rintro rfl
    obtain ⟨q, e, hq, -⟩ := hdue
    rw [hr] at hq
    cases hq

theorem State.graceExpiries_due {s : State} {l : List Nat} {j : Nat} (hdue : (l.foldl State.graceExpiry s).RecordDue j) :
    s.RecordDue j ∧ j ∉ l := by
  induction l generalizing s with
  | nil => exact ⟨hdue, by simp⟩
  | cons id l ih =>
    obtain ⟨here, hl⟩ := ih hdue
    obtain ⟨before, hne⟩ := State.graceExpiry_due here
    exact ⟨before, by simp [hne, hl]⟩

theorem State.graceExpiries_offerDue (s : State) (l : List Nat) (i : Nat) :
    (l.foldl State.graceExpiry s).offerDue i = s.offerDue i := by
  induction l generalizing s with
  | nil => rfl
  | cons id l ih =>
    rw [List.foldl_cons, ih, State.offerDue, State.graceExpiry_offerSlot, (State.MapOnly.graceExpiry s id).tick]
    rfl

theorem State.expireOffer_record (s : State) (i : Nat) (o : Offer) (id : Nat) :
    (s.expireOffer i o).record id = s.record id := by
  simp [State.expireOffer, State.notify_eq, State.removeOffer_eq]

theorem State.expireOffer_offerSlot (s : State) (i : Nat) (o : Offer) (j : Nat) :
    (s.expireOffer i o).offerSlot j = if j = i then ⟨(s.offerSlot i).serial + 1, none⟩ else s.offerSlot j := by
  simp [State.expireOffer, State.notify_eq, State.removeOffer_eq]

theorem State.offerExpiry_record (s : State) (i id : Nat) : (s.offerExpiry i).record id = s.record id := by
  unfold State.offerExpiry
  split
  · split
    · exact s.expireOffer_record i _ id
    · rfl
  · rfl

/-- An offer expiry makes nothing due, and its own slot is not due after it. -/
theorem State.offerExpiry_due {s : State} {i j : Nat} (hdue : (s.offerExpiry i).offerDue j = true) :
    s.offerDue j = true ∧ j ≠ i := by
  unfold State.offerExpiry at hdue
  split at hdue
  · next o ho =>
    split at hdue
    · have tick := (State.MapOnly.expireOffer s i o).tick
      obtain ⟨q, hq, hreached⟩ := (State.offerDue_iff _ j).mp hdue
      rw [State.expireOffer_offerSlot] at hq
      rw [tick] at hreached
      split at hq
      · cases hq
      · next hj => exact ⟨(State.offerDue_iff s j).mpr ⟨q, hq, hreached⟩, hj⟩
    · next hnot =>
      refine ⟨hdue, ?_⟩
      rintro rfl
      rw [State.offerDue, ho] at hdue
      exact hnot hdue
  · next ho =>
    refine ⟨hdue, ?_⟩
    rintro rfl
    rw [State.offerDue, ho] at hdue
    cases hdue

theorem State.offerExpiries_due {s : State} {l : List Nat} {j : Nat}
    (hdue : (l.foldl State.offerExpiry s).offerDue j = true) : s.offerDue j = true ∧ j ∉ l := by
  induction l generalizing s with
  | nil => exact ⟨hdue, by simp⟩
  | cons i l ih =>
    obtain ⟨here, hl⟩ := ih hdue
    obtain ⟨before, hne⟩ := State.offerExpiry_due here
    exact ⟨before, by simp [hne, hl]⟩

theorem State.offerExpiries_recordDue (s : State) (l : List Nat) (id : Nat) :
    (l.foldl State.offerExpiry s).RecordDue id ↔ s.RecordDue id := by
  induction l generalizing s with
  | nil => rfl
  | cons i l ih =>
    rw [List.foldl_cons, ih, State.RecordDue, State.offerExpiry_record, (State.MapOnly.offerExpiry s i).tick]
    rfl

/-- With the load under way the time-out leaves tick 100 behind. -/
theorem State.loadTimeout_load {s : State} (hr : s.resetAsserted = false) (hl : s.loadTimeout.load = .loading) :
    s.tick.toNat ≠ Config.loadTimeoutTick := by
  intro htick
  unfold State.loadTimeout at hl
  split at hl
  · cases hl
  · next hnot => exact hnot ⟨by simp [State.loadUnderWay, hr, hl], htick⟩

theorem State.loadTimeout_tick (s : State) : s.loadTimeout.tick = s.tick := by
  unfold State.loadTimeout
  split <;> rfl

/-- What a TICK takes leaves nothing due (log entry 4). -/
theorem State.takeDue_nothingDue {s : State} (hr : s.resetAsserted = false) : s.takeDue.NothingDue := by
  have kept := State.takeExpiries_mapOnly s.loadTimeout
  constructor
  · intro hl
    have load : s.takeDue.load = s.loadTimeout.load := kept.load
    have tick : s.takeDue.tick = s.tick := kept.tick.trans s.loadTimeout_tick
    rw [tick]
    exact State.loadTimeout_load hr (load ▸ hl)
  · intro id r dl hid hrec hdl
    by_contra hdue
    have due : s.takeDue.RecordDue id := ⟨r, dl, hrec, hdl, by simpa using hdue⟩
    exact (State.graceExpiries_due ((State.offerExpiries_recordDue _ _ id).mp due)).2 (List.mem_range.mpr hid)
  · intro i o hi ho
    by_contra hdue
    have due : s.takeDue.offerDue i = true := by
      rw [State.offerDue, ho]
      simpa using hdue
    obtain ⟨before, hnot⟩ := State.offerExpiries_due due
    rw [State.graceExpiries_offerDue] at before
    exact hnot ((mem_sortRanked _ _ _).mpr (List.mem_filter.mpr ⟨List.mem_range.mpr hi, before⟩))

end Sys2Proof.Machine
end

section
/-! SUPPORT. The shared operations as runs of acts. -/

namespace Sys2Proof.Machine

set_option Elab.async false

/-- A grant moves no tag. -/
theorem grantOldest_tags (l : List OrtEntry) : (grantOldest l).map (·.tag) = l.map (·.tag) := by
  induction l with
  | nil => rfl
  | cons e rest ih =>
    rw [grantOldest]
    split
    · rw [List.map_cons, ih, List.map_cons]
    · rfl

namespace State.Acts

variable {lawful : Prop} {a s t : State}

theorem refl : s.Acts lawful s := Relation.ReflTransGen.refl

theorem ite {c : Prop} [Decidable c] (ht : a.Acts lawful t) (hs : a.Acts lawful s) :
    a.Acts lawful (if c then t else s) := by
  split
  · exact ht
  · exact hs

theorem foldl {α : Type} {f : State → α → State}
    (hf : ∀ (s : State) (x : α), a.Acts lawful s → a.Acts lawful (f s x)) (hs : a.Acts lawful s) (l : List α) :
    a.Acts lawful (l.foldl f s) := by
  induction l generalizing s with
  | nil => exact hs
  | cons x xs ih => exact ih (hf s x hs)

variable (hs : a.Acts lawful s)
include hs

theorem act (ht : State.Act lawful s t) : a.Acts lawful t := Relation.ReflTransGen.tail hs ht

theorem control (ht : t = { s with
    cmdPointer := t.cmdPointer, drainChecks := t.drainChecks, job := t.job, portPointer := t.portPointer
    fresh := t.fresh }) : a.Acts lawful t := hs.act (.control ht)

theorem setJob (j : Job) : a.Acts lawful { s with job := j } := hs.control rfl

theorem setFresh (n : Nat) : a.Acts lawful { s with fresh := n } := hs.control rfl

theorem setDrainChecks (l : List (HostId × Nat)) : a.Acts lawful { s with drainChecks := l } := hs.control rfl

theorem departure (h : HostId) (d : Option Departure) (hd : d = none ↔ s.departures.get h = none) :
    a.Acts lawful { s with departures := s.departures.set h d } := hs.act (.departure h d hd)

/-! ### Ports -/

theorem updPort (h : HostId) {g : HostPort → HostPort} (hg : ∀ p : HostPort, p.Act (g p)) :
    a.Acts lawful (s.updPort h g) := hs.act (.port h (hg _))

theorem notify (h : HostId) (e : Event) : a.Acts lawful (s.notify h e) := hs.updPort h fun _ => .postNotice e

theorem notifyAll (l : List HostId) (e : Event) : a.Acts lawful (s.notifyAll l e) :=
  foldl (fun _ h hs => hs.notify h e) hs l

theorem complete (h : HostId) (tag : BitVec 16) (code : Byte) (r : Result) (p : Payload) :
    a.Acts lawful (s.complete h tag code r p) := hs.updPort h fun _ => .postCompletion _

theorem finish (h : HostId) (d : Desc) (r : Result) : a.Acts lawful (s.finish h d r) :=
  hs.complete h d.tag d.code r .none

theorem send (h : HostId) (m : LinkMessage) : a.Acts lawful (s.send h m) := hs.updPort h fun _ => .send m

theorem reportFault (h : HostId) (r : FaultRecord) (hr : r.suppressed = 0 := by rfl) :
    a.Acts lawful (s.updPort h (·.reportFault r)) :=
  hs.updPort h fun _ => .reportFault r hr

theorem noticeUnless (quiet : Bool) (r : RecallRecord) (h : HostId) : a.Acts lawful (s.noticeUnless quiet r h) := by
  unfold State.noticeUnless State.drainNotice
  refine ite hs ?_
  split
  · exact hs.notify h _
  · exact ite hs (hs.notify h _)
  · exact hs.notify h _
  · split
    · exact hs.notify _ _
    · exact hs

/-! ### Frames -/

/-- A change of a frame in parts that no law places: all but the state, the offer field and the recall set. -/
theorem updFrame (f : Nat) {g : FrameRecord → FrameRecord}
    (hstate : ∀ r : FrameRecord, (g r).state = r.state := by intro; rfl)
    (hoffer : ∀ r : FrameRecord, (g r).offer = r.offer := by intro; rfl)
    (hset : ∀ r : FrameRecord, (g r).recallSet = r.recallSet := by intro; rfl) :
    a.Acts lawful (s.updFrame f g) := hs.act (.frame f _ (hstate _) (hoffer _) (hset _))

theorem enterScrubbing (f : Nat) : a.Acts lawful (s.enterScrubbing f) := hs.act (.enterScrubbing f)

/-! ### Allocation and the Scrub Queue -/

theorem allocService (h : HostId) (tag : BitVec 16) (count : Nat) (label : Option (BitVec 16)) (inh : Bool)
    (hq : s.owned.get h + s.waiting.get h + count ≤ s.quotaOf h) :
    a.Acts lawful (s.allocService h tag count label inh) :=
  (hs.act (.allocate h count label inh hq)).complete h tag codeAlloc .ok _

/-- Allocation service of the head of the Allocation Wait List, with its completion. -/
theorem serveEntry {e : WaitEntry} {rest : List WaitEntry} (hw : s.waitList = e :: rest) :
    a.Acts lawful (({ s with waitList := rest, waiting := s.waiting.set e.host 0 } : State).allocService e.host e.tag
      e.count e.label e.inheritFlag) :=
  (hs.act (.serveHead hw)).complete e.host e.tag codeAlloc .ok _

theorem serveEntries {l : List WaitEntry} (hw : s.waitList = l) : a.Acts lawful (Machine.serveEntries l s) := by
  induction l generalizing s with
  | nil => exact hs.control (by rw [Machine.serveEntries, ← hw])
  | cons e rest ih =>
    rw [Machine.serveEntries]
    refine ite (ih (hs.serveEntry hw) ?_) (hs.control (by rw [← hw]))
    rw [State.allocService_eq]
    rfl

theorem serveWaitList : a.Acts lawful s.serveWaitList := hs.serveEntries rfl

theorem endScrub {f : Nat} {rest : List Nat} (hq : s.scrubQueue = f :: rest) : a.Acts lawful (s.endScrub f rest) :=
  serveWaitList (hs.act (.scrubbed hq))

/-! ### The recall machinery -/

theorem openRecord {id : Nat} {r : RecallRecord} (hr : s.MayOpen lawful id r) : a.Acts lawful (s.openRecord id r) := by
  have recorded := hs.act (.record id r hr)
  unfold State.openRecord
  split
  · exact recorded.notifyAll _ _
  · exact recorded

theorem moveRecord {id : Nat} {old new : RecallRecord} (hid : s.record id = some old) (hnew : old.Advances new) :
    a.Acts lawful (s.moveRecord id old new) := hs.act (.move hid hnew)

theorem completeRecord {id : Nat} {r : RecallRecord} (hid : s.record id = some r) :
    a.Acts lawful (s.completeRecord id r) := by
  have removed := hs.act (.unrecord hid)
  rw [State.completeRecord_eq]
  exact complete (ite (removed.enterScrubbing r.frame) removed) _ _ _ _ _

theorem drainedTarget {id : Nat} {r : RecallRecord} (hid : s.record id = some r) (h : HostId) (quiet : Bool) :
    a.Acts lawful (s.drainedTarget id r h quiet) :=
  noticeUnless (updFrame (hs.moveRecord hid (r.drained_advances h)) r.frame)
    quiet r h

theorem drainTarget {id : Nat} {r : RecallRecord} (hid : s.record id = some r) (h : HostId) (quiet : Bool) :
    a.Acts lawful (s.drainTarget id r h quiet) := by
  have drained := hs.drainedTarget hid h quiet
  rw [State.drainTarget_eq]
  exact ite (drained.completeRecord (by rw [State.drainedTarget_record, if_pos rfl])) drained

theorem drainSwept (h : HostId) (f : Nat) (o : HostId) : a.Acts lawful (s.drainSwept h f o) := by
  have swept : a.Acts lawful (s.sweptHost h f) :=
    (hs.updFrame f).notify h _
  have scrubbing := swept.enterScrubbing f
  have same : ((s.sweptHost h f).enterScrubbing f).departures = s.departures := State.enterScrubbing_departures _ f
  rw [State.drainSwept_eq, ← same]
  exact ite (scrubbing.departure o _ (by simp)) swept

theorem drainReport (h : HostId) (f : Nat) : a.Acts lawful (s.drainReport h f) := by
  unfold State.drainReport
  refine ite hs ?_
  split
  · split
    · next hr => exact ite hs (hs.drainTarget hr h false)
    · exact hs
  · split
    · exact hs.drainSwept h f _
    · exact hs

theorem upgradeRecord (id : Nat) : a.Acts lawful (s.upgradeRecord id) := by
  unfold State.upgradeRecord
  split
  · next r hr => exact hs.moveRecord hr r.upgrade_advances
  · exact hs

theorem graceExpiry (id : Nat) : a.Acts lawful (s.graceExpiry id) := by
  unfold State.graceExpiry
  split
  · next r hr =>
    split
    · exact ite (hs.moveRecord hr (r.close_advances _)) hs
    · exact hs
  · exact hs

/-! ### Offers -/

theorem removeOffer {i : Nat} {o : Offer} (ho : (s.offerSlot i).offer = some o) : a.Acts lawful (s.removeOffer i o) :=
  hs.act (.removeOffer ho)

theorem offerExpiry (i : Nat) : a.Acts lawful (s.offerExpiry i) := by
  unfold State.offerExpiry
  split
  · next ho => exact ite (((hs.removeOffer ho).notify _ _).notify _ _) hs
  · exact hs

theorem withdrawForFree (f : Nat) : a.Acts lawful (s.withdrawForFree f) := by
  unfold State.withdrawForFree
  split
  · split
    · next ho => exact (hs.removeOffer ho).notify _ _
    · exact hs
  · exact hs

theorem closeOffersOf (h : HostId) : a.Acts lawful (s.closeOffersOf h) := by
  refine foldl (fun s i hs => ?_) hs _
  split
  · next ho => exact (hs.removeOffer ho).notify _ _
  · exact hs

/-! ### Departures -/

theorem upgradeRecordsOf (h : HostId) : a.Acts lawful (s.upgradeRecordsOf h) := by
  refine foldl (fun s id hs => ?_) hs _
  split
  · exact ite (hs.upgradeRecord id) hs
  · exact hs

/-- What the start of a departure does after the host's own part. -/
theorem startDeparture_rest (served : Bool) (h : HostId) :
    a.Acts lawful (if served then (((s.removeWaiting h).closeOffersOf h).upgradeRecordsOf h).serveWaitList
      else ((s.removeWaiting h).closeOffersOf h).upgradeRecordsOf h) := by
  have upgraded := ((hs.act (.unwait h)).closeOffersOf h).upgradeRecordsOf h
  exact ite upgraded.serveWaitList upgraded

theorem startDeparture {h : HostId} (cause : Cause) (hm : (s.port h).portState = .member) :
    a.Acts lawful (s.startDeparture h cause) :=
  startDeparture_rest (hs.act (.depart h (s.port h).linkUp cause hm)) (s.waitsAtHead h) h

theorem loseLink {h : HostId} (hm : (s.port h).portState = .member) :
    a.Acts lawful ((s.updPort h (fun p => { p with linkUp := false })).startDeparture h .link) := by
  have whole : ((s.updPort h (fun p => { p with linkUp := false })).updPort h (·.startLeaving)) =
      s.setPort h { (s.port h).startLeaving with linkUp := false } := by
    rw [State.updPort_eq, State.updPort_eq, State.setPort_setPort, State.setPort_port, if_pos rfl]
    rfl
  have started := startDeparture_rest (hs.act (.depart h false .link hm)) (s.waitsAtHead h) h
  unfold State.startDeparture
  simp only [whole]
  exact started

theorem settleDeparting (h : HostId) (f : Nat) : a.Acts lawful (s.settleDeparting h f) := by
  unfold State.settleDeparting
  split
  · split
    · next hr => exact ite hs (hs.drainTarget hr h true)
    · exact hs
  · split
    · exact ite (hs.drainSwept h f _) hs
    · exact hs

theorem endDrainPhase {h : HostId} (cause : Cause) (hd : s.departures.get h ≠ none) :
    a.Acts lawful (s.endDrainPhase h cause) := by
  unfold State.endDrainPhase
  refine departure (foldl (fun _ f hu => hu.settleDeparting h f) (hs.setFresh _) _) h _ ?_
  rw [State.settleAll_departing]
  simp [hd]

theorem endDeparture {h : HostId} (cause : Cause) (hd : s.departures.get h ≠ none) :
    a.Acts lawful (s.endDeparture h cause) := by
  have told := hs.notifyAll (hosts.filter (fun k => !decide (k = h))) (.hostLeft h)
  have same : (s.notifyAll (hosts.filter (fun k => !decide (k = h))) (.hostLeft h)).departures = s.departures := by
    rw [State.notifyAll_frame]
  have ended := told.act (.endDeparture h cause (by rwa [same]))
  unfold State.endDeparture
  dsimp only
  rw [State.notifyAll_setDepartures, ← same]
  exact ended

theorem passSweep {h : HostId} (cause : Cause) (position : Nat) (hd : s.departures.get h ≠ none) :
    a.Acts lawful (s.passSweep h cause position) := by
  unfold State.passSweep
  exact ite (hs.departure h _ (by simp [hd])) (hs.endDeparture cause hd)

theorem removeGrant (f : Nat) (h : HostId) : a.Acts lawful (s.removeGrant f h) := by
  have removed := hs.updFrame f (g := fun fr => { fr with access := fr.access.set h .none })
  unfold State.removeGrant
  dsimp only
  split
  · exact removed.notify _ _
  · exact removed

theorem inheritFrame {f : Nat} {h k : HostId} (hk : s.Inherits f h k) : a.Acts lawful (s.inheritFrame f h k) := by
  obtain ⟨hne, -, -, hq⟩ := hk
  have moved := hs.updFrame f (g := fun fr => { fr with owner := some k, access := fr.access.set h .none })

  have lowered := moved.act (.lowerOwned (some h))
  refine notifyAll (notify (lowered.act (.raiseOwned k ?_)) k _) _ _
  show (s.owned.set h _).get k + s.waiting.get k < s.quotaOf k
  rwa [PerHost.get_set_ne _ _ hne]

theorem beginForcedFreeing (f : Nat) {h : HostId} (cause : Cause) (hd : s.departures.get h ≠ none) :
    a.Acts lawful (s.beginForcedFreeing f h cause) := by
  unfold State.beginForcedFreeing
  refine ite (passSweep (hs.enterScrubbing f) cause f (by rwa [State.enterScrubbing_departures])) ?_
  have closed := hs.updFrame f (g := fun fr => { fr with closing := PerHost.make (fun k =>
    fr.closing.get k || decide (k ∈ (s.frame f).holders (fun k => decide (k = h)))) })
  have asked := closed.setDrainChecks
    (s.drainChecks ++ ((s.frame f).holders (fun k => decide (k = h))).map (fun k => (k, f)))
  have freed : some (⟨cause, .sweeping f true⟩ : Departure) = none ↔ s.departures.get h = none := by simp [hd]
  exact asked.departure h (some ⟨cause, .sweeping f true⟩) freed

theorem sweepAt {h : HostId} (cause : Cause) (f : Nat) (hd : s.departures.get h ≠ none) :
    a.Acts lawful (s.sweepAt h cause f) := by
  have dropped : (s.removeGrant f h).departures = s.departures := by
    unfold State.removeGrant
    dsimp only
    split <;> rfl
  have inherited : ∀ k, (s.inheritFrame f h k).departures = s.departures := by
    intro k
    unfold State.inheritFrame
    dsimp only
    rw [State.notifyAll_frame]
    rfl
  unfold State.sweepAt
  refine ite (hs.passSweep cause f hd) (ite hs (ite hs (ite ?_ (ite ?_ hs))))
  · exact (hs.removeGrant f h).passSweep cause f (by rwa [dropped])
  · split
    · next k heir =>
      split at heir
      · exact (hs.inheritFrame (State.heirOf_some heir).1).passSweep cause f (by rwa [inherited])
      · cases heir
    · exact hs.beginForcedFreeing f cause hd

/-! ### The access path -/

theorem setOrt (h : HostId) (l : List OrtEntry)
    (hl : ((s.unit h).ort.map (·.tag)).Nodup → (l.map (·.tag)).Nodup) :
    a.Acts lawful (s.setUnit h { s.unit h with ort := l }) := hs.act (.ort h l hl)

theorem failRequest (h : HostId) (r : DataRequest) (fault : Option FaultRecord)
    (hf : ∀ x, fault = some x → x.suppressed = 0) : a.Acts lawful (s.failRequest h r fault) := by
  cases fault with
  | none => exact hs.send h _
  | some x => exact (hs.reportFault h x (hf x rfl)).send h _

theorem arrival (h : HostId) (r : DataRequest) : a.Acts lawful (s.arrival h r) := by
  unfold State.arrival
  split
  · exact hs.reportFault h _
  · next unheld =>
    split
    · exact hs.failRequest h r none fun x hx => by cases hx
    · exact hs.failRequest h r _ fun x hx => by cases hx; rfl
    · next f offset _ =>
      refine hs.setOrt h _ fun nodup => ?_
      have other : ∀ e ∈ (s.unit h).ort, e.tag ≠ r.tag := by simpa [TranslationUnit.holdsTag] using unheld
      rw [List.map_append, List.nodup_append]
      refine ⟨nodup, by simp, ?_⟩
      simpa [admittedEntry] using other

theorem noteErrors (l : List (Nat × BlockError)) : a.Acts lawful (s.noteErrors l) :=
  foldl (fun _ be hu => hu.act (.noteError be.1 be.2)) hs l

theorem damageReport (h : HostId) (e : OrtEntry) : a.Acts lawful (s.damageReport h e) :=
  reportFault (hs.updFrame e.frame) h _

theorem writeEntryBlock (e : OrtEntry) (b : Nat) : a.Acts lawful (s.writeEntryBlock e b) := by
  unfold State.writeEntryBlock
  exact ite hs (hs.act (.writeBlock b _))

theorem retire (h : HostId) (e : OrtEntry) (m : LinkMessage) : a.Acts lawful (s.retire h e m) := by
  have left := hs.setOrt h ((s.unit h).ort.filter (fun x => !decide (x.tag = e.tag)))
    fun nodup => nodup.sublist (List.filter_sublist.map _)
  unfold State.retire
  exact ite ((left.send h m).drainReport h e.frame) (left.send h m)

theorem grantScrubber : a.Acts lawful s.grantScrubber := (hs.setJob .scrub).act (.turn 0 fun _ => Nat.zero_le _)

theorem grantPort (h : HostId) (hturn : ¬ (s.scrubberActive = true ∧ s.turn = 16)) :
    a.Acts lawful (s.grantPort h) := by
  have granted := hs.setOrt h (grantOldest (s.unit h).ort) fun nodup => by rwa [grantOldest_tags]
  have noted : a.Acts lawful { s.setUnit h { s.unit h with ort := grantOldest (s.unit h).ort } with
      job := .port h, portPointer := h + 1 } := granted.control rfl
  refine noted.act (.turn (if s.scrubberActive then s.turn + 1 else s.turn) fun bound => ?_)
  have bound' : s.turn ≤ 16 := bound
  split
  · next active =>
    have : s.turn ≠ 16 := fun h16 => hturn ⟨active, h16⟩
    omega
  · exact bound'

/-- After a scrubber write the scrub moves on to the next pool block, or the frame's scrub ends (R17, R18). -/
theorem advanceScrub {f : Nat} {rest : List Nat} (hq : s.scrubQueue = f :: rest) :
    a.Acts lawful (if s.scrubPos + 1 < Config.blocksPerFrame then { s with scrubPos := s.scrubPos + 1 }
      else s.endScrub f rest) := by
  split
  · next hpos => exact hs.act (.scrubPos _ hpos)
  · exact hs.endScrub hq

theorem scrubWriteEnd : a.Acts lawful s.scrubWriteEnd := by
  unfold State.scrubWriteEnd
  split
  · exact hs.setJob .idle
  · next f rest hq =>
    have written := hs.act (.writeBlock (f * Config.blocksPerFrame + s.scrubPos) fun _ => 0)
    exact advanceScrub (written.setJob .idle) (by simpa using hq)

theorem readEnd (h : HostId) (e : OrtEntry) (e0 e1 : BlockError) : a.Acts lawful (s.readEnd h e e0 e1) := by
  unfold State.readEnd
  exact ite (retire (setJob (damageReport (hs.noteErrors _) h e) .idle) h e _)
    (retire (setJob (hs.noteErrors _) .idle) h e _)

theorem writeEnd (h : HostId) (e : OrtEntry) (e0 e1 : BlockError) : a.Acts lawful (s.writeEnd h e e0 e1) := by
  unfold State.writeEnd
  exact ite (retire (setJob (damageReport (hs.noteErrors _) h e) .idle) h e _)
    (retire (setJob (foldl (fun _ b hu => hu.writeEntryBlock e b) hs e.poolBlocks) .idle) h e _)

theorem drainCheck (h : HostId) (f : Nat) : a.Acts lawful (s.drainCheck h f) := by
  have taken := hs.setDrainChecks (s.drainChecks.erase (h, f))
  unfold State.drainCheck
  exact ite taken (taken.drainReport h f)

/-! ### The configuration load and the events of a tick -/

theorem loadTimeout : a.Acts lawful s.loadTimeout := by
  unfold State.loadTimeout
  split
  · next hload =>
    obtain ⟨underWay, -⟩ := hload
    obtain ⟨released, loading⟩ : s.resetAsserted = false ∧ s.load = .loading := by
      simpa [State.loadUnderWay] using underWay
    exact hs.act (.configure _ _ released loading (by simp) (by simp [defaultConfiguration])
      (by simp [defaultConfiguration]))
  · exact hs

theorem takeDue : a.Acts lawful s.takeDue := by
  unfold State.takeDue State.takeExpiries
  exact foldl (fun _ i hu => hu.offerExpiry i) (foldl (fun _ id hu => hu.graceExpiry id) (hs.loadTimeout.setFresh _) _) _

end State.Acts

end Sys2Proof.Machine
end

section
/-! SUPPORT. Every command as a run of acts: the effects of the takings, with what their checks make sure of, and the other
commands. -/

namespace Sys2Proof.Machine

set_option Elab.async false

/-! ### What the checks make sure of -/

theorem leNat_two_lt (b : List Byte) (i : Nat) : leNat b i 2 ≤ 65535 := by
  have low := (byteAt b i).isLt
  have high := (byteAt b (i + 1)).isLt
  simp only [leNat]
  omega

section
variable {s : State} {h : HostId} {d : Desc}

theorem State.freeCheck_ok (hc : s.freeCheck h d = .ok) :
    (s.frame d.frame).state = .held ∧ (s.frame d.frame).recallSet = [] := by
  unfold State.freeCheck at hc
  split_ifs at hc
  simp_all

theorem State.revokeCheck_ok {f : Nat} {g : HostId} (hc : s.revokeCheck h f g = .ok) : (s.frame f).offer = none := by
  unfold State.revokeCheck at hc
  split_ifs at hc
  simp_all

theorem State.offerCheck_ok {f : Nat} {t : HostId} (hc : s.offerCheck h f t = .ok) :
    (s.frame f).offer = none ∧ (s.frame f).recallSet = [] := by
  unfold State.offerCheck at hc
  split_ifs at hc
  simp_all

theorem State.acceptCheck_ok {o : Offer} (hc : s.acceptCheck h o = .ok) :
    o.recipient = h ∧ s.owned.get h + s.waiting.get h < s.quotaOf h := by
  unfold State.acceptCheck at hc
  split_ifs at hc with hrecipient hquota
  exact ⟨not_not.mp hrecipient, Nat.not_lt.mp hquota⟩

theorem State.allocCase_serve (hc : s.allocCase h d = .serve) :
    s.owned.get h + s.waiting.get h + d.count ≤ s.quotaOf h := by
  unfold State.allocCase at hc
  split_ifs at hc with _ hquota
  exact Nat.not_lt.mp hquota

theorem State.allocCase_wait (hc : s.allocCase h d = .wait) :
    s.owned.get h + s.waiting.get h + d.count ≤ s.quotaOf h ∧ s.waitEntry h = none := by
  unfold State.allocCase at hc
  split_ifs at hc with _ hquota _ hbusy hwait
  exact ⟨Nat.not_lt.mp hquota, by simpa [hwait] using hbusy⟩

/-- Under the law a frame with an empty recall set has no record (R12). -/
theorem State.RecallLaw.frame_ne (hlaw : s.RecallLaw) {f id : Nat} {r : RecallRecord} (hf : (s.frame f).recallSet = [])
    (hr : s.record id = some r) : r.frame ≠ f := by
  obtain ⟨-, -, sets, -⟩ := hlaw
  intro hrf
  have listed := (sets f id).mpr ⟨r, hr, hrf⟩
  simp [hf] at listed

/-- Under the law, without a record that withdraws the host's access no record has it as a target not yet drained. -/
theorem State.RecallLaw.drained_of_recallOf (hlaw : s.RecallLaw) {f id : Nat} {r : RecallRecord}
    (hn : s.recallOf f h = none) (hr : s.record id = some r) (hf : r.frame = f) : r.undrained h = false := by
  obtain ⟨-, ids, -⟩ := hlaw
  exact State.recallOf_eq_none_iff.mp hn id r (ids id r hr) hr hf

/-- Under the law the frame of an open offer names it, and has no record (R70). -/
theorem State.RecallLaw.offered (hlaw : s.RecallLaw) {i : Nat} {o : Offer} (ho : (s.offerSlot i).offer = some o) :
    (s.frame o.frame).offer = some ⟨i, (s.offerSlot i).serial⟩ ∧ (s.frame o.frame).recallSet = [] := by
  obtain ⟨-, -, -, slots, fields, -⟩ := hlaw
  have named := (slots i o ho).2
  exact ⟨named, (fields o.frame _ named).1⟩

/-- A withdrawal changes no part of a frame but its offer field. -/
theorem State.withdrawForFree_frame (s : State) (f j : Nat) :
    (s.withdrawForFree f).frame j = { s.frame j with offer := ((s.withdrawForFree f).frame j).offer } := by
  unfold State.withdrawForFree
  split
  · split
    · next o _ =>
      rw [State.notify_eq, State.setPort_frame, State.removeOffer_eq, State.setFrame_frame, State.setOfferSlot_frame]
      split
      · next hj => rw [hj]
      · rfl
    · rfl
  · rfl

theorem State.withdrawForFree_record (s : State) (f id : Nat) : (s.withdrawForFree f).record id = s.record id := by
  unfold State.withdrawForFree
  split
  · split <;> rfl
  · rfl

theorem State.moveOwnership_recalls (s : State) (h : HostId) (i : Nat) (o : Offer) :
    (s.moveOwnership h i o).recalls = s.recalls := by
  simp [State.moveOwnership, State.lowerOwned, State.removeOffer_eq]

theorem State.moveOwnership_port (s : State) (h : HostId) (i : Nat) (o : Offer) (k : HostId) :
    (s.moveOwnership h i o).port k = s.port k := by
  simp [State.moveOwnership, State.lowerOwned, State.removeOffer_eq, State.port]

/-- The move of ownership clears the frame's offer field (R71, R76). -/
theorem State.moveOwnership_offer (s : State) (h : HostId) (i : Nat) (o : Offer) :
    ((s.moveOwnership h i o).frame o.frame).offer = none := by
  simp [State.moveOwnership, State.lowerOwned, State.removeOffer_eq, State.frame]

/-- Under the law the withdrawal clears the frame's offer field (R64). -/
theorem State.RecallLaw.withdrawForFree_offer (hlaw : s.RecallLaw) (f : Nat) :
    ((s.withdrawForFree f).frame f).offer = none := by
  obtain ⟨-, -, -, -, fields, -⟩ := hlaw
  rcases hoffer : (s.frame f).offer with _ | ⟨i, serial⟩
  · rw [State.withdrawForFree_of_no_offer hoffer, hoffer]
  · obtain ⟨-, o, hslot, hf⟩ := fields f _ hoffer
    rw [State.withdrawForFree_of_offer hoffer hslot hf]
    simp

end

/-! ### The effects of the takings -/

/-- What stands when the effect of a taken command begins: the issuer is MEMBER, the time field is two bytes, and what was
assumed of the state. -/
structure State.Asks (lawful : Prop) (s : State) (h : HostId) (d : Desc) : Prop where
  member : (s.port h).portState = .member
  time : d.time ≤ 65535
  law : lawful → s.RecallLaw

namespace State.Acts

variable {lawful : Prop} {a s : State} (hs : a.Acts lawful s) (h : HostId) (d : Desc)
include hs

theorem unlessRefused (check : Result) {passed : State} (hp : check = .ok → a.Acts lawful passed) :
    a.Acts lawful (s.unlessRefused h d check passed) := by
  cases check with
  | ok => exact hp rfl
  | _ => exact hs.finish h d _

theorem allocEffect : a.Acts lawful (allocEffect h d s) := by
  unfold Machine.allocEffect
  split
  · exact hs.finish h d _
  · next hc => exact hs.allocService h _ _ _ _ (State.allocCase_serve hc)
  · next hc =>
    obtain ⟨hq, hn⟩ := State.allocCase_wait hc
    exact hs.act (.wait h d hn hq)
  · exact hs.complete h _ _ _ _

theorem cancelAllocEffect : a.Acts lawful (cancelAllocEffect h d s) := by
  have cancelled := fun tag => ((hs.act (.unwait h)).complete h tag codeAlloc .cancelled .none).finish h d .ok
  unfold Machine.cancelAllocEffect
  split
  · exact ite (ite (cancelled _).serveWaitList (cancelled _)) (hs.finish h d _)
  · exact hs.finish h d _

theorem setLabelEffect : a.Acts lawful (setLabelEffect h d s) :=
  hs.unlessRefused h d (s.ownerCheck h d.frame) fun _ => (hs.updFrame d.frame).finish h d .ok

theorem setInheritEffect : a.Acts lawful (setInheritEffect h d s) :=
  hs.unlessRefused h d (s.ownerCheck h d.frame) fun _ => (hs.updFrame d.frame).finish h d .ok

theorem queryFrameEffect : a.Acts lawful (queryFrameEffect h d s) := by
  unfold Machine.queryFrameEffect
  exact ite (hs.finish h d _) (hs.complete h _ _ _ _)

theorem freePassed (hk : s.Asks lawful h d) (hc : s.freeCheck h d = .ok) : a.Acts lawful (s.freePassed h d) := by
  obtain ⟨held, unrecalled⟩ := State.freeCheck_ok hc
  have kept := State.MapOnly.withdrawForFree s d.frame
  have frame := s.withdrawForFree_frame d.frame d.frame
  unfold State.freePassed
  split
  · next id hid =>
    obtain ⟨room, unused, -⟩ := State.freeRecordId_eq_some_iff.mp hid
    have freeing := (hs.withdrawForFree d.frame).act (.freeing d.frame (by rw [frame]; exact held))
    refine freeing.openRecord ⟨room, ?_, ⟨h, ?_⟩, ?_, fun hlaw => ?_, fun hlaw j q k hq hqf _ => ?_⟩
    · rwa [State.setFrame_record, State.withdrawForFree_record]
    · rw [State.setFrame_port, ← State.isMember_iff, State.withdrawForFree_isMember, State.isMember_iff]
      exact hk.member
    · intro dl hdl
      simp only [State.freeRecord] at hdl
      split at hdl
      · exact ⟨d.time, hk.time, (Option.some.inj hdl).symm⟩
      · cases hdl
    · show ((State.setFrame _ _ _).frame d.frame).offer = none
      rw [State.setFrame_frame, if_pos rfl]
      exact (hk.law hlaw).withdrawForFree_offer d.frame
    · rw [State.setFrame_record, State.withdrawForFree_record] at hq
      exact absurd hqf ((hk.law hlaw).frame_ne unrecalled hq)
  · exact hs.finish h d _

theorem freeEffect (hk : s.Asks lawful h d) : a.Acts lawful (freeEffect h d s) := by
  rw [freeEffect_eq]
  exact hs.unlessRefused h d _ fun hc => hs.freePassed h d hk hc

theorem grantPassed (g : HostId) (level : Level) : a.Acts lawful (s.grantPassed h d g level) := by
  unfold State.grantPassed
  exact ite (hs.finish h d _) (((hs.updFrame d.frame
    (g := fun fr => { fr with access := fr.access.set g level })).notify g _).finish h d _)

theorem grantEffect : a.Acts lawful (grantEffect h d s) := by
  unfold Machine.grantEffect
  split
  · next g level _ _ =>
    exact ite (hs.finish h d _)
      (hs.unlessRefused h d (s.grantCheck h d.frame g level) fun _ => hs.grantPassed h d g level)
  · exact hs.finish h d _

/-- A record with one target, none of whose frame's records has that host as a target not yet drained, may be opened. -/
theorem openForOne (hk : s.Asks lawful h d) {id : Nat} {r : RecallRecord} {g : HostId} {p : Phase}
    (hid : s.freeRecordId = some id) (hr : s.recallOf r.frame g = none) (ho : (s.frame r.frame).offer = none)
    (htargets : r.targets = (PerHost.all none).set g (some p))
    (hdl : ∀ dl, r.deadline = some dl → dl = deadlineAfter s.tick (s.graceOf d.time)) :
    a.Acts lawful (s.openRecord id r) := by
  obtain ⟨room, unused, -⟩ := State.freeRecordId_eq_some_iff.mp hid
  refine hs.openRecord ⟨room, unused, ⟨h, hk.member⟩, fun dl hdl' => ⟨d.time, hk.time, hdl dl hdl'⟩, fun _ => ho,
    fun hlaw j q k hq hqf hrk => ?_⟩
  have only : k = g := by
    by_contra hne
    simp [RecallRecord.undrained, htargets, hne] at hrk
  exact only ▸ (hk.law hlaw).drained_of_recallOf hr hq hqf

theorem revokePassed (hk : s.Asks lawful h d) {g : HostId} (hc : s.revokeCheck h d.frame g = .ok) :
    a.Acts lawful (s.revokePassed h d g) := by
  unfold State.revokePassed
  split
  · split
    · exact ite ((hs.upgradeRecord _).finish h d _) (hs.finish h d _)
    · exact hs.finish h d _
  · next hn =>
    split
    · next hid =>
      refine hs.openForOne h d hk hid hn (State.revokeCheck_ok hc) rfl fun dl hdl => ?_
      simp only [State.revokeRecord] at hdl
      split at hdl
      · exact (Option.some.inj hdl).symm
      · cases hdl
    · exact hs.finish h d _

theorem revokeEffect (hk : s.Asks lawful h d) : a.Acts lawful (revokeEffect h d s) := by
  unfold Machine.revokeEffect
  split
  · next g _ =>
    exact ite (hs.finish h d _) (hs.unlessRefused h d (s.revokeCheck h d.frame g) fun hc => hs.revokePassed h d hk hc)
  · exact hs.finish h d _

theorem releaseUnrecorded (hk : s.Asks lawful h d) (hn : s.recallOf d.frame h = none) :
    a.Acts lawful (s.releaseUnrecorded h d) := by
  unfold State.releaseUnrecorded
  refine ite (hs.finish h d _) (ite (hs.finish h d _) ?_)
  split
  · exact hs.finish h d _
  · next ho =>
    split
    · next hid => exact hs.openForOne h d hk hid hn (not_not.mp ho) rfl fun dl hdl => by cases hdl
    · exact hs.finish h d _

theorem releaseEffect (hk : s.Asks lawful h d) : a.Acts lawful (releaseEffect h d s) := by
  unfold Machine.releaseEffect
  refine ite (hs.finish h d _) (ite (hs.finish h d _) ?_)
  split
  · split
    · next r hr => exact ite ((hs.moveRecord hr (r.close_advances _)).finish h d _) (hs.finish h d _)
    · exact hs.finish h d _
  · next hn => exact hs.releaseUnrecorded h d hk hn

theorem offerPassed (hk : s.Asks lawful h d) {t : HostId} (residual : Level) (hc : s.offerCheck h d.frame t = .ok) :
    a.Acts lawful (s.offerPassed h d t residual) := by
  obtain ⟨unoffered, unrecalled⟩ := State.offerCheck_ok hc
  unfold State.offerPassed
  split
  · next i hi =>
    obtain ⟨room, unused, -⟩ := State.freeOfferSlot_eq_some_iff.mp hi
    have opened := hs.act (.offer i ⟨d.frame, h, t, residual, deadlineAfter s.tick (s.lifetimeOf d.time)⟩
      ⟨room, unused, ⟨h, hk.member⟩, ⟨d.time, hk.time, rfl⟩, unoffered, unrecalled⟩)
    exact (opened.notify t _).complete h d.tag d.code .ok _
  · exact hs.finish h d _

theorem offerEffect (hk : s.Asks lawful h d) : a.Acts lawful (offerEffect h d s) := by
  unfold Machine.offerEffect
  split
  · next t residual _ _ =>
    exact ite (hs.finish h d _)
      (hs.unlessRefused h d (s.offerCheck h d.frame t) fun hc => hs.offerPassed h d hk residual hc)
  · exact hs.finish h d _

theorem handOver {o : Offer} (ho : s.openOffer d.handle = some o) (hc : s.acceptCheck h o = .ok) :
    a.Acts lawful (s.handOver h d o) := by
  have slot := (State.openOffer_eq_some_iff.mp ho).2
  obtain ⟨-, quota⟩ := State.acceptCheck_ok hc
  have moved := (hs.removeOffer (o := o) (i := d.handle.slot) (by rw [slot])).updFrame o.frame (g := fun fr =>
    { fr with
      owner := some h
      access := (if o.residual = .none then fr.access else fr.access.set o.giver o.residual).set h .rw })
  have lowered := moved.act (.lowerOwned (some o.giver))
  have room : (s.owned.set o.giver (s.owned.get o.giver - 1)).get h + s.waiting.get h < s.quotaOf h := by
    rw [PerHost.get_set]
    split
    · next hgiver =>
      rw [hgiver] at quota ⊢
      omega
    · exact quota
  exact notifyAll (notify (lowered.act (.raiseOwned h (by
    simpa [State.lowerOwned, State.removeOffer_eq, State.quotaOf] using room))) o.giver _) _ _

theorem acceptPassed (hk : s.Asks lawful h d) {o : Offer} (ho : s.openOffer d.handle = some o)
    (hc : s.acceptCheck h o = .ok) : a.Acts lawful (s.acceptPassed h d o) := by
  have slot := (State.openOffer_eq_some_iff.mp ho).2
  have handed := hs.handOver h d ho hc
  have ports : ∀ k, ((s.handOver h d o).port k).portState = (s.port k).portState := by
    intro k
    rw [State.handOver, State.notifyAll_portState, State.notify_portState, State.moveOwnership_port]
  have record : ∀ id, (s.handOver h d o).record id = s.record id := by
    intro id
    rw [State.handOver_eq, State.record, State.record]
    dsimp only
    rw [State.moveOwnership_recalls]
  have offer : ((s.handOver h d o).frame o.frame).offer = none := by
    have moved := s.moveOwnership_offer h d.handle.slot o
    rw [State.frame] at moved ⊢
    rwa [State.handOver_eq]
  unfold State.acceptPassed
  refine ite ?_ (handed.finish h d _)
  split
  · next id hid =>
    obtain ⟨room, unused, -⟩ := State.freeRecordId_eq_some_iff.mp hid
    refine handed.openRecord ⟨room, unused, ⟨h, (ports h).trans hk.member⟩, fun dl hdl => (by cases hdl), fun _ => offer,
      fun hlaw j q k hq hqf _ => ?_⟩
    have unrecalled := ((hk.law hlaw).offered (i := d.handle.slot) (o := o) (by rw [slot])).2
    exact absurd hqf ((hk.law hlaw).frame_ne unrecalled ((record j).symm.trans hq))
  · exact handed

theorem acceptEffect (hk : s.Asks lawful h d) : a.Acts lawful (acceptEffect h d s) := by
  rcases ho : s.openOffer d.handle with _ | o
  · rw [acceptEffect_gone ho]
    exact hs.finish h d _
  · rw [acceptEffect_of_openOffer ho]
    exact hs.unlessRefused h d _ fun hc => hs.acceptPassed h d hk ho hc

theorem closeByParty (party other : Offer → HostId) (reason : CloseReason) :
    a.Acts lawful (s.closeByParty h d party other reason) := by
  unfold State.closeByParty
  split
  · exact hs.finish h d _
  · next o ho =>
    have slot := (State.openOffer_eq_some_iff.mp ho).2
    exact ite (hs.finish h d _) (((hs.removeOffer (by rw [slot])).notify _ _).finish h d _)

theorem declineEffect : a.Acts lawful (declineEffect h d s) := by
  rw [declineEffect_eq]
  exact hs.closeByParty h d _ _ _

theorem withdrawEffect : a.Acts lawful (withdrawEffect h d s) := by
  rw [withdrawEffect_eq]
  exact hs.closeByParty h d _ _ _

theorem setWindowEffect (hk : s.Asks lawful h d) : a.Acts lawful (setWindowEffect h d s) := by
  rw [setWindowEffect_eq]
  exact hs.unlessRefused h d _ fun _ => (hs.act (.window h _ _ hk.member)).finish h d .ok

theorem clearWindowEffect (hk : s.Asks lawful h d) : a.Acts lawful (clearWindowEffect h d s) := by
  unfold Machine.clearWindowEffect
  exact ite (hs.finish h d _) ((hs.act (.window h _ _ hk.member)).finish h d _)

theorem mapSlotEffect (hk : s.Asks lawful h d) : a.Acts lawful (mapSlotEffect h d s) := by
  rw [mapSlotEffect_eq]
  exact hs.unlessRefused h d _ fun _ => (hs.act (.slot h _ _ hk.member)).finish h d .ok

theorem unmapSlotEffect (hk : s.Asks lawful h d) : a.Acts lawful (unmapSlotEffect h d s) := by
  unfold Machine.unmapSlotEffect
  exact ite (hs.finish h d _) ((hs.act (.slot h _ _ hk.member)).finish h d _)

end State.Acts

/-! ### Commands -/

/-- The outcome is a next state, and a run of acts leads to it. -/
def State.ActsTo (lawful : Prop) (s : State) (o : Host.Outcome State Fault Refusal) : Prop :=
  ∃ t, o = .next t ∧ s.Acts lawful t

namespace State.ActsTo

variable {lawful : Prop} {s t : State}

theorem next (ht : s.Acts lawful t) : s.ActsTo lawful (.next t) := ⟨t, rfl, ht⟩

theorem idle : s.ActsTo lawful (.next s) := next .refl

theorem ite {c : Prop} [Decidable c] {x y : Host.Outcome State Fault Refusal} (hx : c → s.ActsTo lawful x)
    (hy : ¬ c → s.ActsTo lawful y) : s.ActsTo lawful (if c then x else y) := by
  split
  · next hc => exact hx hc
  · next hc => exact hy hc

/-- A taking is a run of acts where its command's effect is. -/
theorem taking {isRow : Byte → Bool} {act : HostId → Desc → State → State} (hl : lawful → s.RecallLaw)
    (hact : ∀ (h : HostId) (d : Desc) (u : State), s.Acts lawful u → u.Asks lawful h d → s.Acts lawful (act h d u)) :
    s.ActsTo lawful (taking isRow act s) := by
  obtain ⟨t, ht⟩ := taking_answers isRow act s
  rw [ht]
  refine next ?_
  obtain rfl | ⟨h, raw, hp, -, rfl⟩ := taking_cases ht
  · exact .refl
  · refine hact h _ _ (State.Acts.refl.act (.take hp)) ⟨?_, leNat_two_lt raw 10, hl⟩
    rw [State.beginTaking_portState]
    exact State.picked_member hp

/-- A control access that acts by one port operation, or not at all when the link does not deliver. -/
theorem portAccess {c : Prop} [Decidable c] (h : HostId) {g : HostPort → HostPort} (hg : ∀ p : HostPort, p.Act (g p)) :
    s.ActsTo lawful (if c then .next (s.updPort h g) else .next s) :=
  ite (fun _ => next (State.Acts.refl.updPort h hg)) fun _ => idle

theorem joinRequest {h : HostId} (hr : s.resetAsserted = false) : s.Acts lawful (s.joinRequest h) := by
  unfold State.joinRequest
  split
  · next hj =>
    unfold State.joinOutcome at hj
    split at hj
    · next attached =>
      have loaded : s.load ≠ .loading := by
        intro hl
        simp [hl] at hj
      exact (State.Acts.refl.act (.join h attached loaded hr)).notifyAll _ _
    · cases hj
  · exact State.Acts.refl.updPort h fun _ => .joinAnswered _

theorem execJoin (h : HostId) (w : ControlWrite) : s.ActsTo lawful (execJoin h w s) := by
  refine ite (fun hc => next (joinRequest ?_)) fun _ => idle
  have delivers : s.delivers h = true := hc.1
  simp only [State.delivers, Bool.and_eq_true, Bool.not_eq_true'] at delivers
  exact delivers.2

theorem execPoolGrant : s.ActsTo lawful (execPoolGrant s) := by
  unfold Machine.execPoolGrant
  refine ite (fun _ => ite (fun _ => next State.Acts.refl.grantScrubber) fun hturn => ?_) fun _ => idle
  split
  · exact next (State.Acts.refl.grantPort _ hturn)
  · exact ite (fun _ => next State.Acts.refl.grantScrubber) fun _ => idle

theorem execReadPerformed (e0 e1 : BlockError) : s.ActsTo lawful (execReadPerformed e0 e1 s) := by
  unfold Machine.execReadPerformed
  split
  · split
    · exact ite (fun _ => idle) fun _ => next (State.Acts.refl.readEnd _ _ e0 e1)
    · exact idle
  · exact idle

theorem execWritePerformed (e0 e1 : BlockError) : s.ActsTo lawful (execWritePerformed e0 e1 s) := by
  unfold Machine.execWritePerformed
  split
  · split
    · exact ite (fun _ => next (State.Acts.refl.writeEnd _ _ e0 e1)) fun _ => idle
    · exact idle
  · exact idle

theorem execDrainPhaseEnd (h : HostId) : s.ActsTo lawful (execDrainPhaseEnd h s) := by
  unfold Machine.execDrainPhaseEnd
  split
  · next hd => exact ite (fun _ => next (State.Acts.refl.endDrainPhase _ (by simp [hd]))) fun _ => idle
  · exact idle

theorem execSweepStep (h : HostId) : s.ActsTo lawful (execSweepStep h s) := by
  unfold Machine.execSweepStep
  split
  · next hd => exact next (State.Acts.refl.sweepAt _ _ (by simp [hd]))
  · exact idle

theorem execTick : s.ActsTo lawful (execTick s) := by
  refine ite (fun _ => idle) fun hr => next ?_
  have released : s.resetAsserted = false := by simpa using hr
  have taken : s.takeDue.tick = s.tick := (State.takeExpiries_mapOnly s.loadTimeout).tick.trans s.loadTimeout_tick
  have reset : s.takeDue.resetAsserted = s.resetAsserted := by
    refine (State.takeExpiries_mapOnly s.loadTimeout).resetAsserted.trans ?_
    show s.loadTimeout.resetAsserted = _
    unfold State.loadTimeout
    split <;> rfl
  rw [← taken]
  exact State.Acts.refl.takeDue.act (.tick (reset.trans released) (State.takeDue_nothingDue released))

theorem beNat16_le (b : List Byte) (i : Nat) : beNat16 b i ≤ 65535 := by
  have high := (byteAt b i).isLt
  have low := (byteAt b (i + 1)).isLt
  unfold beNat16
  omega

theorem execImageReceived (image : List Byte) : s.ActsTo lawful (execImageReceived image s) := by
  refine ite (fun hc => ?_) fun _ => idle
  obtain ⟨released, loading⟩ : s.resetAsserted = false ∧ s.load = .loading := by
    simpa [State.loadUnderWay] using hc.1
  exact ite
    (fun _ => next (State.Acts.refl.act
      (.configure _ _ released loading (by simp) (beNat16_le image 12) (beNat16_le image 14))))
    fun _ => next (State.Acts.refl.act (.configure _ _ released loading (by simp) (by simp [defaultConfiguration])
      (by simp [defaultConfiguration])))

theorem execLinkUp (h : HostId) : s.ActsTo lawful (execLinkUp h s) := by
  refine ite (fun _ => idle) fun hc => next (State.Acts.refl.act (.linkUp h ?_ ?_))
  · simpa using fun hr => hc (Or.inl hr)
  · simpa using fun hl => hc (Or.inr hl)

theorem execLinkDown (h : HostId) : s.ActsTo lawful (execLinkDown h s) := by
  unfold Machine.execLinkDown
  split
  · exact idle
  · next hp => exact next (State.Acts.refl.act (.detach h hp))
  · next hp => exact next (State.Acts.refl.loseLink hp)
  · next hp => exact next (State.Acts.refl.act (.leavingLinkDown h hp))

theorem execResetDeassert (strap : BitVec 2) : s.ActsTo lawful (execResetDeassert strap s) :=
  ite (fun hr => next (State.Acts.refl.act (.release strap hr))) fun _ => idle

theorem popAccess (h : HostId) {c : Prop} [Decidable c] {g : HostPort → HostPort} (hg : ∀ p : HostPort, p.Act (g p))
    (m : LinkMessage) :
    s.ActsTo lawful (if s.delivers h = true then if c then .next (s.updPort h g) else .next (s.send h m) else .next s) :=
  ite (fun _ => ite (fun _ => next (State.Acts.refl.updPort h hg)) fun _ => next (State.Acts.refl.send h m)) fun _ => idle

end State.ActsTo

open State.Acts in
/-- Every command is a run of acts. -/
theorem exec_actsTo {lawful : Prop} {s : State} (hl : lawful → s.RecallLaw) (i : Instr) :
    s.ActsTo lawful (exec i s) := by
  have begin : s.Acts lawful s := .refl
  unfold exec
  cases i with
  | alloc => exact .taking hl fun h d _ hu _ => hu.allocEffect h d
  | cancelAlloc => exact .taking hl fun h d _ hu _ => hu.cancelAllocEffect h d
  | setLabel => exact .taking hl fun h d _ hu _ => hu.setLabelEffect h d
  | setInherit => exact .taking hl fun h d _ hu _ => hu.setInheritEffect h d
  | queryFrame => exact .taking hl fun h d _ hu _ => hu.queryFrameEffect h d
  | free => exact .taking hl fun h d _ hu hk => hu.freeEffect h d hk
  | grant => exact .taking hl fun h d _ hu _ => hu.grantEffect h d
  | revoke => exact .taking hl fun h d _ hu hk => hu.revokeEffect h d hk
  | release => exact .taking hl fun h d _ hu hk => hu.releaseEffect h d hk
  | offer => exact .taking hl fun h d _ hu hk => hu.offerEffect h d hk
  | accept => exact .taking hl fun h d _ hu hk => hu.acceptEffect h d hk
  | decline => exact .taking hl fun h d _ hu _ => hu.declineEffect h d
  | withdraw => exact .taking hl fun h d _ hu _ => hu.withdrawEffect h d
  | setWindow => exact .taking hl fun h d _ hu hk => hu.setWindowEffect h d hk
  | clearWindow => exact .taking hl fun h d _ hu hk => hu.clearWindowEffect h d hk
  | mapSlot => exact .taking hl fun h d _ hu hk => hu.mapSlotEffect h d hk
  | unmapSlot => exact .taking hl fun h d _ hu hk => hu.unmapSlotEffect h d hk
  | queryHost => exact .taking hl fun h d _ hu _ => hu.complete h d.tag d.code .ok _
  | leave => exact .taking hl fun h d _ hu hk => hu.startDeparture (.leave d.tag) hk.member
  | badCommand => exact .taking hl fun h d _ hu _ => hu.finish h d .badCommand
  | staging h w => exact .portAccess h fun _ => .stage w
  | submit h w => exact .portAccess h fun _ => .submitted
  | join h w => exact .execJoin h w
  | eventPop h len => exact .popAccess h (fun _ => .popEvent len) _
  | faultPop h len => exact .popAccess h (fun _ => .popFault len) _
  | noticeLostClear h w => exact .portAccess h fun _ => .clearNoticeLost _
  | intEnable h w => exact .portAccess h fun _ => .setEnables _
  | controlWrite h w => exact .idle
  | dataRequestArrival h r => exact .ite (fun _ => .next (begin.arrival h r)) fun _ => .idle
  | poolGrant => exact .execPoolGrant
  | scrubWritePerformed => exact .ite (fun _ => .next begin.scrubWriteEnd) fun _ => .idle
  | readPerformed e0 e1 => exact .execReadPerformed e0 e1
  | writePerformed e0 e1 => exact .execWritePerformed e0 e1
  | drainCheck h f => exact .ite (fun _ => .next (begin.drainCheck h f)) fun _ => .idle
  | graceExpiry id => exact .next (begin.graceExpiry id.val)
  | offerExpiry slot => exact .next (begin.offerExpiry slot.val)
  | tick => exact .execTick
  | loadTimeout => exact .next begin.loadTimeout
  | imageReceived image => exact .execImageReceived image
  | linkUp h => exact .execLinkUp h
  | linkDown h => exact .execLinkDown h
  | drainPhaseEnd h => exact .execDrainPhaseEnd h
  | sweepStep h => exact .execSweepStep h
  | deviceReset => exact .next (begin.act .reset)
  | resetDeassert strap => exact .execResetDeassert strap

/-- A law that says nothing of the waiting commands and that every act keeps is kept by every step. -/
theorem step_keeps {lawful : Prop} {I : State → Prop} (hpending : ∀ s l, I s → I { s with pending := l })
    (hlaw : ∀ s : State, I s → lawful → s.RecallLaw) (hI : ∀ s t, State.Act lawful s t → I s → I t)
    {s t : State} (hs : I s) (ht : step s = .next t) : I t := by
  unfold step at ht
  split at ht
  · cases ht
    exact hs
  · next c rest _ =>
    have hrest := hpending s rest hs
    obtain ⟨u, hu, acts⟩ := exec_actsTo (hlaw _ hrest) c
    rw [hu] at ht
    cases ht
    exact acts.keep hI hrest

/-! ### The queue of commands -/

/-- No act touches the queue of waiting commands. -/
theorem State.Act.pending {lawful : Prop} {s t : State} (hact : State.Act lawful s t) : t.pending = s.pending := by
  cases hact with
  | control ht => rw [ht]
  | writeBlock b g =>
    obtain ⟨mem, blocks, written⟩ := s.writeBlock_parts b g
    rw [written]
  | record id r =>
    obtain ⟨frames, recalls, checks, recorded⟩ := s.recorded_parts id r
    rw [recorded]
  | noteError b e => rw [State.noteError_eq]
  | allocate h count label inh => rw [State.allocated, State.allocateAll_eq]
  | serveHead hw => rw [State.servedHead, State.allocated, State.allocateAll_eq]
  | enterScrubbing f => rw [State.enterScrubbing_eq]
  | lowerOwned owner => cases owner <;> rfl
  | _ => rfl

/-- Settles O2: every command is a run of acts, and no act touches the queue. -/
theorem everyCommandRunsAndKeepsQueue : Obligations.EveryCommandRunsAndKeepsQueue := by
  intro c s
  obtain ⟨t, ht, acts⟩ := exec_actsTo (lawful := False) False.elim c
  exact ⟨t, ht, acts.keep (I := fun u => u.pending = s.pending) (fun _ _ hact hu => hact.pending.trans hu) rfl⟩

/-- Settles O1: the front command of a queue that is not empty. -/
theorem stepRunsFrontCommand : Obligations.StepRunsFrontCommand := by
  intro c rest s hs
  simp only [step, hs]

end Sys2Proof.Machine
end

section
/-! SUPPORT. Every act keeps every table in its canonical form (log entry 25). -/

namespace Sys2Proof.Machine

set_option Elab.async false

/-- A run of bytes written keeps the canonical form. -/
theorem Table.wf_run (g : Nat → Byte) (base n : Nat) {m : Table Byte} (hm : Table.wf 0 m) :
    Table.wf 0 ((List.range n).foldl (fun m i => Table.set 0 m (base + i) (g i)) m) := by
  induction n with
  | zero => exact hm
  | succ n ih =>
    rw [List.range_succ, List.foldl_append]
    exact Table.wf_set 0 _ _ ih

theorem State.reset_tablesCanonical : State.reset.TablesCanonical := by
  refine ⟨Table.wf_nil _, Table.wf_nil _, Table.wf_nil _, Table.wf_nil _, Table.wf_nil _, fun h => ?_⟩
  rw [State.unit, State.reset, PerHost.get_all]
  exact ⟨Table.wf_nil _, Table.wf_nil _⟩

namespace State.TablesCanonical

variable {s t : State} (hs : s.TablesCanonical)
include hs

/-- Only the tables bear on the law. -/
theorem of_tables (hframes : t.frames = s.frames := by rfl) (hrecalls : t.recalls = s.recalls := by rfl)
    (hoffers : t.offers = s.offers := by rfl) (hblocks : t.blocks = s.blocks := by rfl)
    (hmem : t.mem = s.mem := by rfl) (hunits : t.units = s.units := by rfl) : t.TablesCanonical := by
  unfold State.TablesCanonical State.unit at hs ⊢
  rwa [hframes, hrecalls, hoffers, hblocks, hmem, hunits]

theorem setFrame (f : Nat) (r : FrameRecord) : (s.setFrame f r).TablesCanonical := by
  obtain ⟨frames, rest⟩ := hs
  exact ⟨Table.wf_set _ f r frames, rest⟩

theorem setRecord (id : Nat) (r : Option RecallRecord) : (s.setRecord id r).TablesCanonical := by
  obtain ⟨frames, recalls, rest⟩ := hs
  exact ⟨frames, Table.wf_set _ id r recalls, rest⟩

theorem setOfferSlot (i : Nat) (o : OfferSlot) : (s.setOfferSlot i o).TablesCanonical := by
  obtain ⟨frames, recalls, offers, rest⟩ := hs
  exact ⟨frames, recalls, Table.wf_set _ i o offers, rest⟩

theorem setUnit (h : HostId) {u : TranslationUnit} (hw : Table.wf none u.windows) (hsl : Table.wf none u.slots) :
    (s.setUnit h u).TablesCanonical := by
  obtain ⟨frames, recalls, offers, blocks, mem, units⟩ := hs
  refine ⟨frames, recalls, offers, blocks, mem, fun k => ?_⟩
  rw [State.setUnit_unit]
  split
  · exact ⟨hw, hsl⟩
  · exact units k

theorem windows (h : HostId) : Table.wf none (s.unit h).windows := by
  obtain ⟨-, -, -, -, -, units⟩ := hs
  exact (units h).1

theorem slots (h : HostId) : Table.wf none (s.unit h).slots := by
  obtain ⟨-, -, -, -, -, units⟩ := hs
  exact (units h).2

theorem allocateAll (h : HostId) (label : Option (BitVec 16)) (inh : Bool) (l : List Nat) :
    (s.allocateAll h label inh l).TablesCanonical := by
  induction l generalizing s with
  | nil => exact hs
  | cons f l ih => exact ih (hs.setFrame f _)

theorem writeBlock (b : Nat) (g : Nat → Byte) : (s.writeBlock b g).TablesCanonical := by
  obtain ⟨frames, recalls, offers, blocks, mem, units⟩ := hs
  exact ⟨frames, recalls, offers, Table.wf_set _ b (BlockStatus.known .none) blocks, Table.wf_run g _ _ mem, units⟩

theorem noteError (b : Nat) (e : BlockError) : (s.noteError b e).TablesCanonical := by
  unfold State.noteError
  split
  · exact hs
  · split
    · obtain ⟨frames, recalls, offers, blocks, mem, units⟩ := hs
      exact ⟨frames, recalls, offers, Table.wf_set _ b (BlockStatus.known .uncorrectable) blocks, mem, units⟩
    · exact hs

theorem lowerOwned (owner : Option HostId) : (s.lowerOwned owner).TablesCanonical := by
  cases owner <;> exact hs.of_tables

theorem enterScrubbing (f : Nat) : (s.enterScrubbing f).TablesCanonical := by
  unfold State.enterScrubbing
  split
  · exact of_tables ((hs.lowerOwned (s.frame f).owner).setFrame f _)
  · exact hs

theorem moveRecord (id : Nat) (old new : RecallRecord) : (s.moveRecord id old new).TablesCanonical :=
  of_tables ((hs.setRecord id (some new)).setFrame new.frame _)

theorem act {lawful : Prop} (hact : State.Act lawful s t) : t.TablesCanonical := by
  cases hact with
  | control ht =>
    rw [ht]
    exact hs.of_tables
  | port h _ => exact hs.of_tables
  | take _ => exact hs.of_tables
  | writeBlock b g => exact hs.writeBlock b g
  | noteError b e => exact hs.noteError b e
  | turn n _ => exact hs.of_tables
  | scrubPos n _ => exact hs.of_tables
  | ort h l _ => exact hs.setUnit h (hs.windows h) (hs.slots h)
  | window h i w _ => exact hs.setUnit h (Table.wf_set _ i w (hs.windows h)) (hs.slots h)
  | slot h i sl _ => exact hs.setUnit h (hs.windows h) (Table.wf_set _ i sl (hs.slots h))
  | frame f r _ _ _ => exact hs.setFrame f r
  | freeing f _ => exact hs.setFrame f _
  | allocate h count label inh _ => exact allocateAll hs.of_tables h label inh _
  | serveHead _ => exact allocateAll hs.of_tables _ _ _ _
  | wait h d _ _ => exact hs.of_tables
  | unwait h => exact hs.of_tables
  | enterScrubbing f => exact hs.enterScrubbing f
  | @scrubbed f rest _ =>
    exact of_tables (hs.setFrame f { s.frame f with state := .free, damaged := false })
  | lowerOwned owner => exact hs.lowerOwned owner
  | raiseOwned h _ => exact hs.of_tables
  | record id r _ => exact (hs.setFrame r.frame _).moveRecord id _ r
  | move _ _ => exact hs.moveRecord _ _ _
  | unrecord _ => exact (hs.setRecord _ none).setFrame _ _
  | offer i o _ => exact (hs.setOfferSlot i _).setFrame _ _
  | removeOffer _ => exact (hs.setOfferSlot _ _).setFrame _ _
  | departure h d _ => exact hs.of_tables
  | depart h linkUp cause _ =>
    exact of_tables (setUnit (hs.of_tables (t := s.setPort h _)) h (Table.wf_nil _) (Table.wf_nil _))
  | endDeparture h cause _ => exact hs.of_tables
  | join h _ _ _ => exact hs.of_tables
  | linkUp h _ _ => exact hs.of_tables
  | detach h _ => exact hs.of_tables
  | leavingLinkDown h _ => exact hs.of_tables
  | configure l c _ _ _ _ _ =>
    obtain ⟨-, rest⟩ := hs
    exact ⟨Table.wf_nil _, rest⟩
  | tick _ _ => exact hs.of_tables
  | reset => exact State.reset_tablesCanonical.of_tables
  | release strap _ => exact hs.of_tables

end State.TablesCanonical

/-- Settles O54: every act writes the tables by writes that keep the canonical form, or empties them. -/
theorem tablesStayCanonical : Obligations.TablesStayCanonical := fun _ _ hs ht =>
  step_keeps (lawful := False) (fun _ _ hs => hs.of_tables) (fun _ _ => False.elim) (fun _ _ hact hs => hs.act hact)
    hs ht

end Sys2Proof.Machine
end

section
/-! SUPPORT. Every act keeps port states, links, departure records and the load in agreement (R30, R86, R91, R142, R147,
R163, R166). -/

namespace Sys2Proof.Machine

set_option Elab.async false

/-! ### Ports -/

/-- What a port that is not MEMBER holds empty (R30, R86, R91, R140). -/
def HostPort.Quiet (p : HostPort) : Prop := p.queue = [] ∧ p.faults = [] ∧ p.reserved = 0 ∧ p.noticeLost = false

namespace HostPort.Act

variable {p q : HostPort} (hact : p.Act q)
include hact

theorem portState_linkUp : q.portState = p.portState ∧ q.linkUp = p.linkUp := by
  cases hact with
  | postNotice e => exact ⟨p.postNotice_portState e, p.postNotice_linkUp e⟩
  | postCompletion e => unfold HostPort.postCompletion; split <;> exact ⟨rfl, rfl⟩
  | reportFault r _ =>
    refine ⟨?_, p.reportFault_linkUp r⟩
    unfold HostPort.reportFault
    split
    · split <;> rfl
    · rfl
  | send m => unfold HostPort.send; split <;> exact ⟨rfl, rfl⟩
  | submitted =>
    unfold HostPort.submitted
    split
    · split <;> exact ⟨rfl, rfl⟩
    · exact ⟨rfl, rfl⟩
  | popEvent len => unfold HostPort.popEvent HostPort.send; split <;> split <;> exact ⟨rfl, rfl⟩
  | popFault len => unfold HostPort.popFault HostPort.send; split <;> split <;> exact ⟨rfl, rfl⟩
  | clearNoticeLost v =>
    unfold HostPort.clearNoticeLost
    split
    · split <;> exact ⟨rfl, rfl⟩
    · exact ⟨rfl, rfl⟩
  | setEnables v => unfold HostPort.setEnables; split <;> exact ⟨rfl, rfl⟩
  | stage w => exact ⟨rfl, rfl⟩
  | joinAnswered st => exact ⟨rfl, rfl⟩

theorem portState : q.portState = p.portState := hact.portState_linkUp.1

theorem linkUp : q.linkUp = p.linkUp := hact.portState_linkUp.2

/-- No act fills a port that is not MEMBER. -/
theorem quiet (hm : p.portState ≠ .member) (hp : p.Quiet) : q.Quiet := by
  obtain ⟨queue, faults, reserved, lost⟩ := hp
  cases hact with
  | postNotice e =>
    rw [HostPort.postNotice_of_not_member e hm]
    exact ⟨queue, faults, reserved, lost⟩
  | postCompletion e =>
    rw [HostPort.postCompletion, if_neg (fun x => hm x.1)]
    exact ⟨queue, faults, reserved, lost⟩
  | reportFault r _ =>
    rw [HostPort.reportFault_of_not_member r hm]
    exact ⟨queue, faults, reserved, lost⟩
  | send m => unfold HostPort.send; split <;> exact ⟨queue, faults, reserved, lost⟩
  | submitted =>
    rw [HostPort.submitted, if_neg hm]
    exact ⟨queue, faults, reserved, lost⟩
  | popEvent len => unfold HostPort.popEvent HostPort.send; split <;> split <;> exact ⟨queue, faults, reserved, lost⟩
  | popFault len =>
    rw [HostPort.popFault, faults]
    dsimp only
    unfold HostPort.send
    split <;> exact ⟨queue, faults, reserved, lost⟩
  | clearNoticeLost v =>
    unfold HostPort.clearNoticeLost
    split
    · split
      · exact ⟨queue, faults, reserved, rfl⟩
      · exact ⟨queue, faults, reserved, lost⟩
    · exact ⟨queue, faults, reserved, lost⟩
  | setEnables v => unfold HostPort.setEnables; split <;> exact ⟨queue, faults, reserved, lost⟩
  | stage w => exact ⟨queue, faults, reserved, lost⟩
  | joinAnswered st => exact ⟨queue, faults, reserved, lost⟩

end HostPort.Act

/-- The port agrees with its unit's tables and with its departure record. -/
structure HostPort.Agrees (p : HostPort) (u : TranslationUnit) (d : Option Departure) : Prop where
  down : p.portState = .down → p.linkUp = false
  up : p.portState = .attached ∨ p.portState = .member → p.linkUp = true
  quiet : p.portState ≠ .member → p.Quiet ∧ u.windows = [] ∧ u.slots = []
  leaving : p.portState = .leaving ↔ d ≠ none

theorem State.portConsistent_iff (s : State) (h : HostId) :
    s.PortConsistent h ↔ (s.port h).Agrees (s.unit h) (s.departures.get h) := by
  constructor
  · rintro ⟨down, up, quiet, leaving⟩
    refine ⟨down, up, fun hm => ?_, leaving⟩
    obtain ⟨queue, windows, slots, faults, reserved, lost⟩ := quiet hm
    exact ⟨⟨queue, faults, reserved, lost⟩, windows, slots⟩
  · rintro ⟨down, up, quiet, leaving⟩
    refine ⟨down, up, fun hm => ?_, leaving⟩
    obtain ⟨⟨queue, faults, reserved, lost⟩, windows, slots⟩ := quiet hm
    exact ⟨queue, windows, slots, faults, reserved, lost⟩

/-- An act of a port keeps its agreement with the rest. -/
theorem HostPort.Agrees.act {p q : HostPort} {u : TranslationUnit} {d : Option Departure} (hp : p.Agrees u d)
    (hact : p.Act q) : q.Agrees u d where
  down hq := by rw [hact.linkUp]; exact hp.down (hact.portState ▸ hq)
  up hq := by rw [hact.linkUp]; exact hp.up (hact.portState ▸ hq)
  quiet hq := by
    rw [hact.portState] at hq
    obtain ⟨quiet, tables⟩ := hp.quiet hq
    exact ⟨hact.quiet hq quiet, tables⟩
  leaving := by rw [hact.portState]; exact hp.leaving

theorem HostPort.Agrees.of_member {p : HostPort} {u : TranslationUnit} {d : Option Departure}
    (hm : p.portState = .member) (hl : p.linkUp = true) (hd : d = none) : p.Agrees u d :=
  ⟨by simp [hm], fun _ => hl, fun hne => absurd hm hne, by simp [hm, hd]⟩

/-- At a port that is not LEAVING and not MEMBER: the link follows the port state, and all is empty. -/
theorem HostPort.Agrees.of_outside {p : HostPort} {u : TranslationUnit} {d : Option Departure} {up : Bool}
    (hs : p.portState = if up then .attached else .down) (hl : p.linkUp = up) (hq : p.Quiet)
    (hu : u.windows = [] ∧ u.slots = []) (hd : d = none) : p.Agrees u d := by
  cases up <;> exact ⟨by simp [hs, hl], by simp [hs, hl], fun _ => ⟨hq, hu⟩, by simp [hs, hd]⟩

/-! ### The whole block -/

/-- The end of a departure leaves the port ATTACHED or DOWN as its link is. -/
theorem HostPort.endLeaving_state (p : HostPort) (cause : Cause) :
    (p.endLeaving cause).portState = (if p.linkUp then .attached else .down) ∧
      (p.endLeaving cause).linkUp = p.linkUp ∧ (p.Quiet → (p.endLeaving cause).Quiet) := by
  unfold HostPort.endLeaving
  split
  · next up =>
    split <;> exact ⟨by simp [up, HostPort.refreshHirq], rfl, fun quiet => quiet⟩
  · next up => exact ⟨by simp, rfl, fun quiet => quiet⟩

namespace State.MembershipSound

variable {s t : State} (hs : s.MembershipSound)
include hs

theorem agrees (h : HostId) : (s.port h).Agrees (s.unit h) (s.departures.get h) := by
  obtain ⟨ports, -, -⟩ := hs
  exact (s.portConsistent_iff h).mp (ports h)

theorem load_iff : s.load = .loading ↔ s.config = none := by
  obtain ⟨-, ⟨load, -, -⟩, -⟩ := hs
  exact load

theorem load_of_reset (hr : s.resetAsserted = true) : s.load = .loading := by
  obtain ⟨-, ⟨-, load, -⟩, -⟩ := hs
  exact load hr

theorem down_of_reset (hr : s.resetAsserted = true) (h : HostId) : (s.port h).portState = .down := by
  obtain ⟨-, -, down⟩ := hs
  exact down hr h

theorem outside_of_config (hc : s.config = none) (h : HostId) :
    (s.port h).portState = .down ∨ (s.port h).portState = .attached := by
  obtain ⟨-, ⟨-, -, outside⟩, -⟩ := hs
  exact outside hc h

/-- A host is MEMBER only with a configuration, and only with RESET_N deasserted. -/
theorem config_of_member {h : HostId} (hm : (s.port h).portState = .member) : s.config ≠ none := by
  intro hc
  rcases hs.outside_of_config hc h with hd | ha
  · simp [hm] at hd
  · simp [hm] at ha

theorem config_of_leaving {h : HostId} (hm : (s.port h).portState = .leaving) : s.config ≠ none := by
  intro hc
  rcases hs.outside_of_config hc h with hd | ha
  · simp [hm] at hd
  · simp [hm] at ha

theorem not_reset {h : HostId} (hm : (s.port h).portState ≠ .down) : s.resetAsserted = false := by
  by_contra hr
  exact hm (hs.down_of_reset (by simpa using hr) h)

/-- Only ports, units, departure records and the start-up state bear on the law. -/
theorem of_parts (hports : t.ports = s.ports := by rfl) (hunits : t.units = s.units := by rfl)
    (hdepartures : t.departures = s.departures := by rfl) (hload : t.load = s.load := by rfl)
    (hconfig : t.config = s.config := by rfl) (hreset : t.resetAsserted = s.resetAsserted := by rfl) :
    t.MembershipSound := by
  unfold State.MembershipSound State.MembersAfterLoad State.PortConsistent State.port State.unit at hs ⊢
  rwa [hports, hunits, hdepartures, hload, hconfig, hreset]

/-- A change of one host's port, unit tables and departure record that leaves them in agreement. -/
theorem of_host (h : HostId) (hother : ∀ k, k ≠ h → t.port k = s.port k ∧ (t.unit k).windows = (s.unit k).windows ∧
      (t.unit k).slots = (s.unit k).slots ∧ t.departures.get k = s.departures.get k)
    (hagrees : (t.port h).Agrees (t.unit h) (t.departures.get h))
    (houtside : s.config = none → (t.port h).portState = .down ∨ (t.port h).portState = .attached)
    (hdown : s.resetAsserted = true → (t.port h).portState = .down)
    (hload : t.load = s.load := by rfl) (hconfig : t.config = s.config := by rfl)
    (hreset : t.resetAsserted = s.resetAsserted := by rfl) : t.MembershipSound := by
  refine ⟨fun k => (t.portConsistent_iff k).mpr ?_, ⟨?_, ?_, fun hc k => ?_⟩, fun hr k => ?_⟩
  · by_cases hk : k = h
    · rw [hk]
      exact hagrees
    · obtain ⟨port, windows, slots, departure⟩ := hother k hk
      have before := hs.agrees k
      rw [port, departure]
      exact ⟨before.down, before.up, by rw [windows, slots]; exact before.quiet, before.leaving⟩
  · rw [hload, hconfig]
    exact hs.load_iff
  · rw [hload, hreset]
    exact hs.load_of_reset
  · rw [hconfig] at hc
    by_cases hk : k = h
    · rw [hk]
      exact houtside hc
    · rw [(hother k hk).1]
      exact hs.outside_of_config hc k
  · rw [hreset] at hr
    by_cases hk : k = h
    · rw [hk]
      exact hdown hr
    · rw [(hother k hk).1]
      exact hs.down_of_reset hr k

/-- A change of one host's port that leaves its state as it was. -/
theorem setPort {h : HostId} {p : HostPort} (hp : p.portState = (s.port h).portState)
    (hagrees : p.Agrees (s.unit h) (s.departures.get h)) : (s.setPort h p).MembershipSound := by
  refine hs.of_host h (fun k hk => ?_) (by simpa using hagrees) (fun hc => ?_) (fun hr => ?_)
  · rw [State.setPort_port, if_neg hk]
    exact ⟨rfl, rfl, rfl, rfl⟩
  · rw [State.setPort_port, if_pos rfl, hp]
    exact hs.outside_of_config hc h
  · rw [State.setPort_port, if_pos rfl, hp]
    exact hs.down_of_reset hr h

/-- A change of one host's unit: anything while MEMBER, and otherwise nothing in its tables. -/
theorem setUnit {h : HostId} {u : TranslationUnit}
    (hu : (s.port h).portState ≠ .member → u.windows = (s.unit h).windows ∧ u.slots = (s.unit h).slots) :
    (s.setUnit h u).MembershipSound := by
  have before := hs.agrees h
  refine hs.of_host h (fun k hk => ?_) ?_ (fun hc => hs.outside_of_config hc h) (fun hr => hs.down_of_reset hr h)
  · rw [State.setUnit_unit, if_neg hk]
    exact ⟨rfl, rfl, rfl, rfl⟩
  · rw [State.setUnit_unit, if_pos rfl]
    refine ⟨before.down, before.up, fun hm => ?_, before.leaving⟩
    obtain ⟨quiet, windows, slots⟩ := before.quiet hm
    obtain ⟨sameWindows, sameSlots⟩ := hu hm
    exact ⟨quiet, sameWindows.trans windows, sameSlots.trans slots⟩

theorem take {h : HostId} {raw : List Byte} (hp : s.picked = some (h, raw)) : (s.beginTaking h).MembershipSound := by
  have hm := State.picked_member hp
  have before := hs.agrees h
  have agrees : ({ s.port h with queue := (s.port h).queue.tail, reserved := (s.port h).reserved + 1 } : HostPort).Agrees
      (s.unit h) (s.departures.get h) :=
    ⟨before.down, before.up, fun hne => absurd hm hne, before.leaving⟩
  exact of_parts (hs.setPort (h := h) (p := { s.port h with
    queue := (s.port h).queue.tail, reserved := (s.port h).reserved + 1 }) rfl agrees)

theorem departure (h : HostId) (d : Option Departure) (hd : d = none ↔ s.departures.get h = none) :
    ({ s with departures := s.departures.set h d } : State).MembershipSound := by
  have before := hs.agrees h
  refine hs.of_host h (fun k hk => ⟨rfl, rfl, rfl, PerHost.get_set_ne _ _ hk⟩) ?_
    (fun hc => hs.outside_of_config hc h) (fun hr => hs.down_of_reset hr h)
  refine ⟨before.down, before.up, before.quiet, before.leaving.trans ?_⟩
  rw [PerHost.get_set_same, not_iff_not]
  exact hd.symm

theorem depart {h : HostId} (linkUp : Bool) (cause : Cause) (hm : (s.port h).portState = .member) :
    (s.departing h linkUp cause).MembershipSound := by
  have port : (s.departing h linkUp cause).port h = { (s.port h).startLeaving with linkUp := linkUp } :=
    (State.setPort_port s h _ h).trans (if_pos rfl)
  have unit : (s.departing h linkUp cause).unit h = { s.unit h with windows := [], slots := [] } :=
    (State.setUnit_unit _ h _ h).trans (if_pos rfl)
  have departure : (s.departing h linkUp cause).departures.get h = some ⟨cause, .draining⟩ :=
    PerHost.get_set_same _ h _
  refine hs.of_host h (fun k hk => ⟨?_, ?_, ?_, ?_⟩) ?_ (fun hc => absurd hc (hs.config_of_member hm)) (fun hr => ?_)
  · exact (State.setPort_port s h _ k).trans (if_neg hk)
  · exact congrArg TranslationUnit.windows ((State.setUnit_unit _ h _ k).trans (if_neg hk))
  · exact congrArg TranslationUnit.slots ((State.setUnit_unit _ h _ k).trans (if_neg hk))
  · exact PerHost.get_set_ne _ _ hk
  · rw [port, unit, departure]
    exact ⟨by simp [HostPort.startLeaving], by simp [HostPort.startLeaving],
      fun _ => ⟨⟨rfl, rfl, rfl, rfl⟩, rfl, rfl⟩, by simp [HostPort.startLeaving]⟩
  · simp [hs.not_reset (h := h) (by simp [hm])] at hr

theorem endDeparture {h : HostId} (cause : Cause) (hd : s.departures.get h ≠ none) :
    (s.departed h cause).MembershipSound := by
  have before := hs.agrees h
  have hleaving := before.leaving.mpr hd
  obtain ⟨quiet, tables⟩ := before.quiet (by simp [hleaving])
  obtain ⟨state, link, kept⟩ := (s.port h).endLeaving_state cause
  have port : (s.departed h cause).port h = (s.port h).endLeaving cause :=
    (State.setPort_port s h _ h).trans (if_pos rfl)
  refine hs.of_host h (fun k hk => ⟨?_, rfl, rfl, ?_⟩) ?_ (fun hc => absurd hc (hs.config_of_leaving hleaving))
    (fun hr => ?_)
  · exact (State.setPort_port s h _ k).trans (if_neg hk)
  · exact PerHost.get_set_ne _ _ hk
  · rw [port]
    exact .of_outside state link (kept quiet) tables (PerHost.get_set_same _ _ _)
  · simp [hs.not_reset (h := h) (by simp [hleaving])] at hr

theorem join {h : HostId} (hp : (s.port h).portState = .attached) (hl : s.load ≠ .loading)
    (hr : s.resetAsserted = false) :
    (s.setPort h { s.port h with portState := .member, joinStatus := .joined }).MembershipSound := by
  have before := hs.agrees h
  refine hs.of_host h (fun k hk => ?_) ?_ (fun hc => absurd (hs.load_iff.mpr hc) hl) (fun hr' => ?_)
  · rw [State.setPort_port, if_neg hk]
    exact ⟨rfl, rfl, rfl, rfl⟩
  · rw [State.setPort_port, if_pos rfl]
    refine .of_member rfl (before.up (Or.inl hp)) ?_
    by_contra hd
    have := before.leaving.mpr hd
    simp [hp] at this
  · simp [hr] at hr'

theorem linkUp {h : HostId} (hr : s.resetAsserted = false) (hl : (s.port h).linkUp = false) :
    (s.linkComesUp h).MembershipSound := by
  have before := hs.agrees h
  have outside : (s.port h).portState = .down ∨ (s.port h).portState = .leaving := by
    rcases hstate : (s.port h).portState
    · exact Or.inl rfl
    · simpa [hl] using before.up (Or.inl hstate)
    · simpa [hl] using before.up (Or.inr hstate)
    · exact Or.inr rfl
  obtain ⟨quiet, tables⟩ := before.quiet (by rcases outside with hd | hd <;> simp [hd])
  have port : (s.linkComesUp h).port h = { s.port h with
      linkUp := true
      portState := if (s.port h).portState = .down then .attached else (s.port h).portState
      sent := (s.port h).sent ++ [.creditGrant (s.unit h).creditTags] } :=
    (State.setPort_port s h _ h).trans (if_pos rfl)
  refine hs.of_host h (fun k hk => ⟨?_, rfl, rfl, rfl⟩) ?_ (fun hc => ?_) (fun hr' => ?_)
  · exact (State.setPort_port s h _ k).trans (if_neg hk)
  · rw [port]
    rcases outside with hd | hd
    · have undeparted : s.departures.get h = none := by
        by_contra hne
        simpa [hd] using before.leaving.mpr hne
      exact .of_outside (up := true) (by simp [hd]) rfl quiet tables undeparted
    · refine ⟨by simp [hd], by simp [hd], fun _ => ⟨quiet, tables⟩, ?_⟩
      rw [if_neg (by simp [hd])]
      exact before.leaving
  · rw [port]
    rcases outside with hd | hd
    · exact Or.inr (by simp [hd])
    · exact absurd hc (hs.config_of_leaving hd)
  · simp [hr] at hr'

theorem detach {h : HostId} (hp : (s.port h).portState = .attached) :
    (s.setPort h { (s.port h).clearLists with portState := .down, linkUp := false }).MembershipSound := by
  have before := hs.agrees h
  obtain ⟨⟨queue, -, -, -⟩, tables⟩ := before.quiet (by simp [hp])
  have undeparted : s.departures.get h = none := by
    by_contra hne
    simpa [hp] using before.leaving.mpr hne
  refine hs.of_host h (fun k hk => ?_) ?_ (fun _ => ?_) (fun _ => ?_)
  · rw [State.setPort_port, if_neg hk]
    exact ⟨rfl, rfl, rfl, rfl⟩
  · rw [State.setPort_port, if_pos rfl]
    exact .of_outside (up := false) rfl rfl ⟨queue, rfl, rfl, rfl⟩ tables undeparted
  · rw [State.setPort_port, if_pos rfl]
    exact Or.inl rfl
  · rw [State.setPort_port, if_pos rfl]

theorem leavingLinkDown {h : HostId} (hp : (s.port h).portState = .leaving) :
    (s.setPort h { s.port h with linkUp := false }).MembershipSound := by
  have before := hs.agrees h
  exact hs.setPort rfl ⟨fun _ => rfl, by simp [hp], before.quiet, before.leaving⟩

theorem configure {l : LoadState} (c : Configuration) (hr : s.resetAsserted = false) (hl : l ≠ .loading) :
    (s.enterConfiguration l c).MembershipSound := by
  obtain ⟨ports, -, -⟩ := hs
  refine ⟨ports, ⟨?_, fun hr' => ?_, fun hc => by cases hc⟩, fun hr' => ?_⟩
  · exact iff_of_false hl (by simp [State.enterConfiguration])
  · exact absurd (hr.symm.trans hr') (by simp)
  · exact absurd (hr.symm.trans hr') (by simp)

theorem release (strap : BitVec 2) (hr : s.resetAsserted = true) :
    ({ s with
      resetAsserted := false, strap := strap, tick := 0, load := .loading, config := none, promSelect := true }
      : State).MembershipSound := by
  have down := hs.down_of_reset hr
  obtain ⟨ports, -, -⟩ := hs
  exact ⟨ports, ⟨by simp, by simp, fun _ h => Or.inl (down h)⟩, by simp⟩

theorem lowerOwned (owner : Option HostId) : (s.lowerOwned owner).MembershipSound := by
  cases owner <;> exact hs.of_parts

theorem enterScrubbing (f : Nat) : (s.enterScrubbing f).MembershipSound := by
  rw [State.enterScrubbing_eq]
  exact hs.of_parts

theorem allocateAll (h : HostId) (label : Option (BitVec 16)) (inh : Bool) (l : List Nat) :
    (s.allocateAll h label inh l).MembershipSound := by
  rw [State.allocateAll_eq]
  exact hs.of_parts

omit hs in
theorem reset : State.reset.MembershipSound := by
  refine ⟨fun h => (State.portConsistent_iff _ h).mpr ?_, ⟨by simp [State.reset], fun _ => rfl, fun _ h => ?_⟩,
    fun _ h => ?_⟩
  · simp only [State.port, State.unit, State.reset, PerHost.get_all]
    exact .of_outside (up := false) rfl rfl ⟨rfl, rfl, rfl, rfl⟩ ⟨rfl, rfl⟩ rfl
  · exact Or.inl (by simp [State.port, State.reset, HostPort.initial])
  · simp [State.port, State.reset, HostPort.initial]

theorem act {lawful : Prop} (hact : State.Act lawful s t) : t.MembershipSound := by
  cases hact with
  | control ht =>
    rw [ht]
    exact hs.of_parts
  | port h hp => exact hs.setPort hp.portState ((hs.agrees h).act hp)
  | take hp => exact hs.take hp
  | writeBlock b g =>
    obtain ⟨mem, blocks, written⟩ := s.writeBlock_parts b g
    rw [written]
    exact hs.of_parts
  | noteError b e =>
    rw [State.noteError_eq]
    exact hs.of_parts
  | turn n _ => exact hs.of_parts
  | scrubPos n _ => exact hs.of_parts
  | ort h l _ => exact hs.setUnit fun _ => ⟨rfl, rfl⟩
  | window h i w hm => exact hs.setUnit fun hne => absurd hm hne
  | slot h i sl hm => exact hs.setUnit fun hne => absurd hm hne
  | frame f r _ _ _ => exact hs.of_parts
  | freeing f _ => exact hs.of_parts
  | allocate h count label inh _ => exact allocateAll hs.of_parts h label inh _
  | serveHead _ => exact allocateAll hs.of_parts _ _ _ _
  | wait h d _ _ => exact hs.of_parts
  | unwait h => exact hs.of_parts
  | enterScrubbing f => exact hs.enterScrubbing f
  | scrubbed _ => exact hs.of_parts
  | lowerOwned owner => exact hs.lowerOwned owner
  | raiseOwned h _ => exact hs.of_parts
  | record id r _ =>
    obtain ⟨frames, recalls, checks, recorded⟩ := s.recorded_parts id r
    rw [recorded]
    exact hs.of_parts
  | move _ _ => exact hs.of_parts
  | unrecord _ => exact hs.of_parts
  | offer i o _ => exact hs.of_parts
  | removeOffer _ => exact hs.of_parts
  | departure h d hd => exact hs.departure h d hd
  | depart h linkUp cause hm => exact hs.depart linkUp cause hm
  | endDeparture h cause hd => exact hs.endDeparture cause hd
  | join h hp hl hr => exact hs.join hp hl hr
  | linkUp h hr hl => exact hs.linkUp hr hl
  | detach h hp => exact hs.detach hp
  | leavingLinkDown h hp => exact hs.leavingLinkDown hp
  | configure l c hr _ hl _ _ => exact hs.configure c hr hl
  | tick _ _ => exact hs.of_parts
  | reset => exact State.MembershipSound.reset.of_parts
  | release strap hr => exact hs.release strap hr

end State.MembershipSound

/-- Settles O56: an act changes at most one host's port, unit and departure record, and leaves them in agreement. -/
theorem membershipStaysSound : Obligations.MembershipStaysSound := fun _ _ hs ht =>
  step_keeps (lawful := False) (fun _ _ hs => hs.of_parts) (fun _ _ => False.elim) (fun _ _ hact hs => hs.act hact) hs ht

/-- A law that every act keeps in a state with sound membership is kept by every step from such a state. -/
theorem step_keeps_law {lawful : Prop} {I : State → Prop} (hpending : ∀ s l, I s → I { s with pending := l })
    (hlaw : ∀ s : State, I s → lawful → s.RecallLaw)
    (hI : ∀ s t, State.Act lawful s t → s.MembershipSound → I s → I t) {s t : State} (hm : s.MembershipSound)
    (hs : I s) (ht : step s = .next t) : I t :=
  (step_keeps (lawful := lawful) (I := fun u => u.MembershipSound ∧ I u)
    (fun u l hu => ⟨hu.1.of_parts, hpending u l hu.2⟩) (fun u hu => hlaw u hu.2)
    (fun u v hact hu => ⟨hu.1.act hact, hI u v hact hu.1 hu.2⟩) ⟨hm, hs⟩ ht).2

end Sys2Proof.Machine
end

section
/-! SUPPORT. Every act keeps the bounds of queues, logs, counters and the ORT (R17, R28, R30, R111, R113, R127, R134), and
every frame in exactly one place (R3). -/

namespace Sys2Proof.Machine

set_option Elab.async false

/-! ### Ports -/

namespace HostPort.Bounded

variable {p q : HostPort} (hp : p.Bounded)
include hp

/-- A change of the Event Queue and its reservations within 64 entries, at a port that is not LEAVING. -/
theorem setEvents (events : List Event) (reserved : Nat) (noticeLost hirq : Bool)
    (hroom : events.length + reserved ≤ 64) (hm : p.portState ≠ .leaving) :
    ({ p with events := events, reserved := reserved, noticeLost := noticeLost, hirq := hirq } : HostPort).Bounded := by
  obtain ⟨staging, queue, descriptors, -, faults, suppressed, -⟩ := hp
  exact ⟨staging, queue, descriptors, hroom, faults, suppressed, fun hl => absurd hl hm⟩

/-- A change of the Fault Log to at most 8 records, each with at most 255 suppressed faults. -/
theorem setFaults {faults : List FaultRecord} (hirq : Bool) (hroom : faults.length ≤ 8)
    (hsuppressed : ∀ r ∈ faults, r.suppressed ≤ 255) :
    ({ p with faults := faults, hirq := hirq } : HostPort).Bounded := by
  obtain ⟨staging, queue, descriptors, events, -, -, leaving⟩ := hp
  exact ⟨staging, queue, descriptors, events, hroom, hsuppressed, leaving⟩

theorem postNotice (e : Event) : (p.postNotice e).Bounded := by
  by_cases hm : p.portState = .member
  · have staying : p.portState ≠ .leaving := by simp [hm]
    obtain ⟨-, -, -, events, -⟩ := id hp
    cases hroom : p.hasFreeEntry with
    | true =>
      rw [HostPort.postNotice_room e hm hroom]
      have := (HostPort.hasFreeEntry_iff p).mp hroom
      exact hp.setEvents (p.events ++ [e]) p.reserved p.noticeLost _ (by simp; omega) staying
    | false =>
      rw [HostPort.postNotice_full e hm hroom]
      exact hp.setEvents p.events p.reserved true _ events staying
  · rw [HostPort.postNotice_of_not_member e hm]
    exact hp

theorem postCompletion (e : Event) : (p.postCompletion e).Bounded := by
  unfold HostPort.postCompletion
  split
  · next hc =>
    obtain ⟨hm, hr⟩ := hc
    obtain ⟨-, -, -, events, -⟩ := id hp
    exact hp.setEvents (p.events ++ [e]) (p.reserved - 1) p.noticeLost _ (by simp; omega) (by simp [hm])
  · exact hp

omit hp in
theorem suppressTail_bounds {l : List FaultRecord} (hl : ∀ r ∈ l, r.suppressed ≤ 255) :
    (suppressTail l).length = l.length ∧ ∀ r ∈ suppressTail l, r.suppressed ≤ 255 := by
  rcases List.eq_nil_or_concat l with rfl | ⟨older, newest, rfl⟩
  · exact ⟨rfl, hl⟩
  · rw [List.concat_eq_append, suppressTail_append]
    refine ⟨by simp, fun r hr => ?_⟩
    rcases List.mem_append.mp hr with old | new
    · exact hl r (by simp [old])
    · rw [List.mem_singleton.mp new]
      exact Nat.min_le_left _ _

theorem reportFault (r : FaultRecord) (hr : r.suppressed = 0) : (p.reportFault r).Bounded := by
  by_cases hm : p.portState = .member
  · obtain ⟨-, -, -, -, faults, suppressed, -⟩ := id hp
    rcases Nat.lt_or_ge p.faults.length 8 with room | full
    · rw [HostPort.reportFault_room r hm room]
      refine hp.setFaults _ (by simp; omega) fun x hx => ?_
      rcases List.mem_append.mp hx with old | new
      · exact suppressed x old
      · rw [List.mem_singleton.mp new, hr]
        exact Nat.zero_le _
    · rw [HostPort.reportFault_full r hm full]
      obtain ⟨length, bounds⟩ := suppressTail_bounds suppressed
      exact hp.setFaults _ (by rw [length]; exact faults) bounds
  · rw [HostPort.reportFault_of_not_member r hm]
    exact hp

theorem send (m : LinkMessage) : (p.send m).Bounded := by
  unfold HostPort.send
  split <;> exact hp

theorem submitted : p.submitted.Bounded := by
  unfold HostPort.submitted
  split
  · split
    · next hroom =>
      obtain ⟨staging, -, descriptors, rest⟩ := hp
      refine ⟨staging, ?_, fun d hd => ?_, rest⟩
      · simpa using hroom
      · rcases List.mem_append.mp hd with old | new
        · exact descriptors d old
        · rw [List.mem_singleton.mp new]
          exact staging
    · exact hp
  · exact hp

theorem popEvent (len : Nat) : (p.popEvent len).Bounded := by
  unfold HostPort.popEvent
  split
  · exact hp.send _
  · next e rest he =>
    refine send ?_ _
    obtain ⟨staging, queue, descriptors, events, faults, suppressed, leaving⟩ := hp
    refine ⟨staging, queue, descriptors, ?_, faults, suppressed, fun hl => ?_⟩
    · rw [he] at events
      exact Nat.le_trans (Nat.add_le_add_right (Nat.le_succ _) _) events
    · have := (leaving hl).1
      simp [he] at this

theorem popFault (len : Nat) : (p.popFault len).Bounded := by
  unfold HostPort.popFault
  split
  · exact hp.send _
  · next r rest hf =>
    obtain ⟨-, -, -, -, faults, suppressed, -⟩ := id hp
    rw [hf] at faults suppressed
    exact send (hp.setFaults _ (Nat.le_of_succ_le faults) fun x hx => suppressed x (List.mem_cons_of_mem _ hx)) _

theorem act (hact : p.Act q) : q.Bounded := by
  cases hact with
  | postNotice e => exact hp.postNotice e
  | postCompletion e => exact hp.postCompletion e
  | reportFault r hr => exact hp.reportFault r hr
  | send m => exact hp.send m
  | submitted => exact hp.submitted
  | popEvent len => exact hp.popEvent len
  | popFault len => exact hp.popFault len
  | clearNoticeLost v =>
    unfold HostPort.clearNoticeLost
    split
    · split <;> exact hp
    · exact hp
  | setEnables v => unfold HostPort.setEnables; split <;> exact hp
  | stage w =>
    obtain ⟨staging, rest⟩ := hp
    exact ⟨by simpa [stagingAfter] using staging, rest⟩
  | joinAnswered st => exact hp

end HostPort.Bounded

theorem HostPort.clearLists_bounded {p : HostPort} (hp : p.Bounded) : p.clearLists.Bounded := by
  obtain ⟨staging, queue, descriptors, -⟩ := hp
  exact ⟨staging, queue, descriptors, by simp [HostPort.clearLists], by simp [HostPort.clearLists],
    by simp [HostPort.clearLists], fun _ => ⟨rfl, rfl⟩⟩

theorem HostPort.initial_bounded : HostPort.initial.Bounded := by simp [HostPort.Bounded, HostPort.initial]

/-! ### The bounds of the whole block -/

namespace State.Bounded

variable {s t : State} (hs : s.Bounded)
include hs

/-- Only the ports, the ORTs, the turn counter and the scrubber's place bear on the law. -/
theorem of_parts (hports : t.ports = s.ports := by rfl) (hunits : t.units = s.units := by rfl)
    (hturn : t.turn = s.turn := by rfl) (hpos : t.scrubPos = s.scrubPos := by rfl) : t.Bounded := by
  unfold State.Bounded State.port State.unit at hs ⊢
  rwa [hports, hunits, hturn, hpos]

theorem setPort {h : HostId} {p : HostPort} (hp : p.Bounded) : (s.setPort h p).Bounded := by
  obtain ⟨ports, rest⟩ := hs
  refine ⟨fun k => ?_, rest⟩
  rw [State.setPort_port]
  split
  · exact hp
  · exact ports k

theorem setUnit {h : HostId} {u : TranslationUnit} (hu : (u.ort.map (·.tag)).Nodup) : (s.setUnit h u).Bounded := by
  obtain ⟨ports, orts, rest⟩ := hs
  refine ⟨ports, fun k => ?_, rest⟩
  rw [State.setUnit_unit]
  split
  · exact hu
  · exact orts k

theorem port (h : HostId) : (s.port h).Bounded := hs.1 h

theorem ort (h : HostId) : ((s.unit h).ort.map (·.tag)).Nodup := hs.2.1 h

theorem setTurn {n : Nat} (hn : n ≤ 16) : ({ s with turn := n } : State).Bounded := by
  obtain ⟨ports, orts, -, pos⟩ := hs
  exact ⟨ports, orts, hn, pos⟩

theorem setScrubPos {n : Nat} (hn : n < Config.blocksPerFrame) : ({ s with scrubPos := n } : State).Bounded := by
  obtain ⟨ports, orts, turn, -⟩ := hs
  exact ⟨ports, orts, turn, hn⟩

theorem take {h : HostId} {raw : List Byte} (hp : s.picked = some (h, raw)) : (s.beginTaking h).Bounded := by
  have hm := State.picked_member hp
  have room := State.picked_room hp
  obtain ⟨staging, queue, descriptors, -, faults, suppressed, -⟩ := hs.port h
  refine of_parts (hs.setPort (h := h) (p := { s.port h with
    queue := (s.port h).queue.tail, reserved := (s.port h).reserved + 1 })
    ⟨staging, ?_, fun d hd => descriptors d (List.mem_of_mem_tail hd), ?_, faults, suppressed, fun hl => ?_⟩)
  · simp only [List.length_tail]
    omega
  · show (s.port h).events.length + ((s.port h).reserved + 1) ≤ 64
    omega
  · exact absurd (hm.symm.trans hl) (by simp)

theorem enterScrubbing (f : Nat) : (s.enterScrubbing f).Bounded := by
  unfold State.enterScrubbing
  split
  · have pos : (if s.scrubQueue.isEmpty then 0 else s.scrubPos) < Config.blocksPerFrame := by
      obtain ⟨-, -, -, pos⟩ := hs
      split
      · decide
      · exact pos
    cases (s.frame f).owner <;> exact of_parts (hs.setScrubPos pos)
  · exact hs

theorem allocateAll (h : HostId) (label : Option (BitVec 16)) (inh : Bool) (l : List Nat) :
    (s.allocateAll h label inh l).Bounded := by
  rw [State.allocateAll_eq]
  exact hs.of_parts

/-- A port whose departure ends holds at most LEAVE's completion. -/
theorem endDeparture (hm : s.MembershipSound) {h : HostId} (cause : Cause) (hd : s.departures.get h ≠ none) :
    (s.departed h cause).Bounded := by
  have leaving := (hm.agrees h).leaving.mpr hd
  obtain ⟨staging, queue, descriptors, -, faults, suppressed, emptied⟩ := hs.port h
  obtain ⟨noEvents, noReserved⟩ := emptied leaving
  refine of_parts (hs.setPort (h := h) (p := (s.port h).endLeaving cause) ?_)
  unfold HostPort.endLeaving
  split
  · split
    · exact ⟨staging, queue, descriptors, by simp [HostPort.refreshHirq, noEvents, noReserved], faults, suppressed,
        by simp [HostPort.refreshHirq]⟩
    · exact ⟨staging, queue, descriptors, by simp [noEvents, noReserved], faults, suppressed, by simp⟩
  · exact ⟨staging, queue, descriptors, by simp [noEvents, noReserved], faults, suppressed, by simp⟩

omit hs in
theorem reset : State.reset.Bounded := by
  refine ⟨fun h => ?_, fun h => ?_, by simp [State.reset], by simp [State.reset]⟩
  · rw [State.port, State.reset, PerHost.get_all]
    exact HostPort.initial_bounded
  · rw [State.unit, State.reset, PerHost.get_all]
    exact List.nodup_nil

theorem act (hm : s.MembershipSound) {lawful : Prop} (hact : State.Act lawful s t) : t.Bounded := by
  cases hact with
  | control ht =>
    rw [ht]
    exact hs.of_parts
  | port h hp => exact hs.setPort ((hs.port h).act hp)
  | take hp => exact hs.take hp
  | writeBlock b g =>
    obtain ⟨mem, blocks, written⟩ := s.writeBlock_parts b g
    rw [written]
    exact hs.of_parts
  | noteError b e =>
    rw [State.noteError_eq]
    exact hs.of_parts
  | turn n hn =>
    obtain ⟨-, -, turn, -⟩ := id hs
    exact hs.setTurn (hn turn)
  | scrubPos n hn => exact hs.setScrubPos hn
  | ort h l hl => exact hs.setUnit (hl (hs.ort h))
  | window h i w _ => exact hs.setUnit (hs.ort h)
  | slot h i sl _ => exact hs.setUnit (hs.ort h)
  | frame f r _ _ _ => exact hs.of_parts
  | freeing f _ => exact hs.of_parts
  | allocate h count label inh _ => exact allocateAll hs.of_parts h label inh _
  | serveHead _ => exact allocateAll hs.of_parts _ _ _ _
  | wait h d _ _ => exact hs.of_parts
  | unwait h => exact hs.of_parts
  | enterScrubbing f => exact hs.enterScrubbing f
  | scrubbed _ => exact of_parts (hs.setScrubPos (n := 0) (by decide))
  | lowerOwned owner => cases owner <;> exact hs.of_parts
  | raiseOwned h _ => exact hs.of_parts
  | record id r _ =>
    obtain ⟨frames, recalls, checks, recorded⟩ := s.recorded_parts id r
    rw [recorded]
    exact hs.of_parts
  | move _ _ => exact hs.of_parts
  | unrecord _ => exact hs.of_parts
  | offer i o _ => exact hs.of_parts
  | removeOffer _ => exact hs.of_parts
  | departure h d _ => exact hs.of_parts
  | depart h linkUp cause _ =>
    obtain ⟨staging, -, -, rest⟩ := HostPort.clearLists_bounded (hs.port h)
    have port : ({ (s.port h).startLeaving with linkUp := linkUp } : HostPort).Bounded :=
      ⟨staging, by simp [HostPort.startLeaving], by simp [HostPort.startLeaving], by simp [HostPort.startLeaving,
        HostPort.clearLists], by simp [HostPort.startLeaving, HostPort.clearLists], by simp [HostPort.startLeaving,
        HostPort.clearLists], fun _ => ⟨rfl, rfl⟩⟩
    exact of_parts ((hs.setPort (h := h) port).setUnit (h := h) (u := { s.unit h with windows := [], slots := [] })
      (hs.ort h))
  | endDeparture h cause hd => exact hs.endDeparture hm cause hd
  | join h _ _ _ =>
    obtain ⟨staging, queue, descriptors, events, faults, suppressed, -⟩ := hs.port h
    exact hs.setPort ⟨staging, queue, descriptors, events, faults, suppressed, by simp⟩
  | linkUp h _ _ =>
    obtain ⟨staging, queue, descriptors, events, faults, suppressed, leaving⟩ := hs.port h
    refine hs.setPort ⟨staging, queue, descriptors, events, faults, suppressed, fun hl => leaving ?_⟩
    by_cases hd : (s.port h).portState = .down
    · simp [hd] at hl
    · simpa [hd] using hl
  | detach h _ =>
    obtain ⟨staging, queue, descriptors, events, faults, suppressed, -⟩ := HostPort.clearLists_bounded (hs.port h)
    exact hs.setPort ⟨staging, queue, descriptors, events, faults, suppressed, by simp⟩
  | leavingLinkDown h _ => exact hs.setPort (hs.port h)
  | configure l c _ _ _ _ _ => exact of_parts (hs.setScrubPos (n := 0) (by decide))
  | tick _ _ => exact hs.of_parts
  | reset => exact State.Bounded.reset.of_parts
  | release strap _ => exact hs.of_parts

end State.Bounded

/-- Settles O57: an act fills a queue or a log only where it has room, and a counter only below its bound. -/
theorem boundsKept : Obligations.BoundsKept := fun _ _ hm hs ht =>
  step_keeps_law (lawful := False) (fun _ _ hs => hs.of_parts) (fun _ _ => False.elim)
    (fun _ _ hact hm hs => hs.act hm hact) hm hs ht

end Sys2Proof.Machine
end

section
/-! SUPPORT. Every act keeps every frame in exactly one place (R3), and owned plus waiting counts within the quota (R14). -/

namespace Sys2Proof.Machine

set_option Elab.async false

/-! ### Entry into SCRUBBING -/

theorem State.enterScrubbing_scrubQueue (s : State) (f : Nat) :
    (s.enterScrubbing f).scrubQueue = if (s.frame f).isOwned then s.scrubQueue ++ [f] else s.scrubQueue := by
  unfold State.enterScrubbing
  split
  · cases (s.frame f).owner <;> rfl
  · rfl

theorem State.enterScrubbing_owned_le (s : State) (f : Nat) (h : HostId) :
    (s.enterScrubbing f).owned.get h ≤ s.owned.get h := by
  unfold State.enterScrubbing
  split
  · cases (s.frame f).owner with
    | none => exact Nat.le_refl _
    | some o =>
      show (s.owned.set o (s.owned.get o - 1)).get h ≤ s.owned.get h
      rw [PerHost.get_set]
      split
      · next hh =>
        rw [hh]
        exact Nat.sub_le _ _
      · exact Nat.le_refl _
  · exact Nat.le_refl _

/-- Allocation service changes the Free List, the owned count and the Frame Table alone. -/
theorem State.allocated_parts (s : State) (h : HostId) (count : Nat) (label : Option (BitVec 16)) (inh : Bool) :
    ∃ frames, s.allocated h count label inh =
      { s with
        freeList := s.freeList.drop count, owned := s.owned.set h (s.owned.get h + count), frames := frames } :=
  ⟨_, State.allocateAll_eq _ h label inh _⟩

theorem State.allocated_frame (s : State) (h : HostId) (count : Nat) (label : Option (BitVec 16)) (inh : Bool) (g : Nat) :
    (s.allocated h count label inh).frame g =
      if g ∈ s.freeList.take count then (s.frame g).allocate h label inh else s.frame g :=
  State.allocateAll_frame _ h label inh _ g

/-! ### Every frame in exactly one place -/

namespace State.FrameLaw

variable {s t : State} (hs : s.FrameLaw)
include hs

/-- Only the Free List, the Scrub Queue, the number of frames and the states of the frames bear on the law. -/
theorem of_parts (hfree : t.freeList = s.freeList := by rfl) (hscrub : t.scrubQueue = s.scrubQueue := by rfl)
    (hconfig : t.config = s.config := by rfl)
    (hstate : ∀ f, (t.frame f).state = (s.frame f).state := by intro; rfl) : t.FrameLaw := by
  have count : t.frameCount = s.frameCount := by rw [State.frameCount, hconfig, State.frameCount]
  unfold State.FrameLaw at hs ⊢
  simpa only [hfree, hscrub, count, hstate] using hs

theorem setFrame {f : Nat} {r : FrameRecord} (hr : r.state = (s.frame f).state) : (s.setFrame f r).FrameLaw := by
  refine hs.of_parts (hstate := fun g => ?_)
  rw [State.setFrame_frame]
  split
  · next hg => rw [hg, hr]
  · rfl

theorem allocated (h : HostId) (count : Nat) (label : Option (BitVec 16)) (inh : Bool) :
    (s.allocated h count label inh).FrameLaw := by
  obtain ⟨freeNodup, scrubNodup, free, scrub, beyond⟩ := hs
  have parted := List.take_append_drop count s.freeList
  have apart : ∀ f ∈ s.freeList.drop count, f ∉ s.freeList.take count := by
    rw [← parted, List.nodup_append] at freeNodup
    exact fun f hd ht => freeNodup.2.2 f ht f hd rfl
  have taken : ∀ f ∈ s.freeList.take count, f < s.frameCount ∧ (s.frame f).state = .free :=
    fun f hf => (free f).mp (List.mem_of_mem_take hf)
  obtain ⟨frames, allocated⟩ := s.allocated_parts h count label inh
  have count_eq : (s.allocated h count label inh).frameCount = s.frameCount := by rw [allocated]; rfl
  have freeList : (s.allocated h count label inh).freeList = s.freeList.drop count := by rw [allocated]
  have scrubQueue : (s.allocated h count label inh).scrubQueue = s.scrubQueue := by rw [allocated]
  unfold State.FrameLaw
  simp only [count_eq, freeList, scrubQueue, State.allocated_frame]
  refine ⟨freeNodup.sublist (List.drop_sublist _ _), scrubNodup, fun f => ?_, fun f => ?_, fun f hf => ?_⟩
  · by_cases ht : f ∈ s.freeList.take count
    · rw [if_pos ht]
      exact iff_of_false (fun hd => apart f hd ht) (by simp [FrameRecord.allocate])
    · rw [if_neg ht, ← free f]
      refine ⟨List.mem_of_mem_drop, fun hf => ?_⟩
      rw [← parted, List.mem_append] at hf
      exact hf.resolve_left ht
  · by_cases ht : f ∈ s.freeList.take count
    · rw [if_pos ht, scrub f, (taken f ht).2]
      simp [FrameRecord.allocate]
    · rw [if_neg ht]
      exact scrub f
  · rw [if_neg fun ht => Nat.not_lt.mpr hf (taken f ht).1]
    exact beyond f hf

theorem enterScrubbing (f : Nat) : (s.enterScrubbing f).FrameLaw := by
  have count : (s.enterScrubbing f).frameCount = s.frameCount := (State.MapOnly.enterScrubbing s f).frameCount
  have free : (s.enterScrubbing f).freeList = s.freeList := by rw [State.enterScrubbing_eq]
  obtain ⟨freeNodup, scrubNodup, free_iff, scrub_iff, beyond⟩ := hs
  unfold State.FrameLaw
  simp only [count, free, State.enterScrubbing_scrubQueue, State.enterScrubbing_frame]
  cases owned : (s.frame f).isOwned with
  | false => simpa using ⟨freeNodup, scrubNodup, free_iff, scrub_iff, beyond⟩
  | true =>
    have state : (s.frame f).state = .held ∨ (s.frame f).state = .freeing := by
      simpa [FrameRecord.isOwned] using owned
    have within : f < s.frameCount := by
      by_contra out
      simp [beyond f (Nat.not_lt.mp out)] at state
    have unqueued : f ∉ s.scrubQueue := by
      intro hq
      simp [((scrub_iff f).mp hq).2] at state
    simp only [if_true, and_true]
    refine ⟨freeNodup, ?_, fun g => ?_, fun g => ?_, fun g hg => ?_⟩
    · exact List.nodup_append.mpr ⟨scrubNodup, by simp, fun a ha b hb hab => unqueued (by simp_all)⟩
    · rw [free_iff]
      split
      · next hg =>
        subst hg
        rcases state with held | freeing <;> simp_all [FrameRecord.toScrubbing]
      · rfl
    · rw [List.mem_append, List.mem_singleton, scrub_iff]
      split
      · next hg =>
        subst hg
        simp [FrameRecord.toScrubbing, within]
      · next hg => simp [hg]
    · rw [if_neg]
      · exact beyond g hg
      · rintro rfl
        exact Nat.not_lt.mpr hg within

theorem freeing {f : Nat} (hheld : (s.frame f).state = .held) :
    (s.setFrame f { s.frame f with state := .freeing }).FrameLaw := by
  obtain ⟨freeNodup, scrubNodup, free, scrub, beyond⟩ := hs
  refine ⟨freeNodup, scrubNodup, fun g => ?_, fun g => ?_, fun g hg => ?_⟩
  · rw [State.setFrame_frame]
    refine (free g).trans ?_
    split
    · next hgf => simp [hgf, hheld]
    · rfl
  · rw [State.setFrame_frame]
    refine (scrub g).trans ?_
    split
    · next hgf => simp [hgf, hheld]
    · rfl
  · rw [State.setFrame_frame]
    split
    · next hgf =>
      have := beyond g hg
      rw [hgf, hheld] at this
      cases this
    · exact beyond g hg

theorem scrubbed {f : Nat} {rest : List Nat} (hq : s.scrubQueue = f :: rest) : (s.scrubbed f rest).FrameLaw := by
  obtain ⟨freeNodup, scrubNodup, free, scrub, beyond⟩ := hs
  have frame : ∀ g, (s.scrubbed f rest).frame g =
      if g = f then { s.frame f with state := .free, damaged := false } else s.frame g :=
    fun g => State.setFrame_frame s f { s.frame f with state := .free, damaged := false } g
  obtain ⟨within, scrubbing⟩ := (scrub f).mp (by simp [hq])
  rw [hq, List.nodup_cons] at scrubNodup
  have unlisted : f ∉ s.freeList := by
    intro hf
    simp [((free f).mp hf).2] at scrubbing
  refine ⟨?_, scrubNodup.2, fun g => ?_, fun g => ?_, fun g hg => ?_⟩
  · exact List.nodup_append.mpr ⟨freeNodup, by simp, fun a ha b hb hab => unlisted (by simp_all)⟩
  · show g ∈ s.freeList ++ [f] ↔ g < s.frameCount ∧ _
    rw [List.mem_append, List.mem_singleton, free, frame]
    split
    · next hgf => simp [hgf, within]
    · next hgf => simp [hgf]
  · show g ∈ rest ↔ g < s.frameCount ∧ _
    have listed := scrub g
    rw [hq, List.mem_cons] at listed
    rw [frame]
    split
    · next hgf =>
      rw [hgf]
      exact iff_of_false scrubNodup.1 (by simp)
    · next hgf => simpa [hgf] using listed
  · rw [frame, if_neg]
    · exact beyond g hg
    · rintro rfl
      exact Nat.not_lt.mpr hg within

/-- A load ends before there is a configuration: the Free List is empty, and every frame enters the Scrub Queue (R2). -/
theorem configure (l : LoadState) (c : Configuration) (hc : s.config = none) :
    (s.enterConfiguration l c).FrameLaw := by
  obtain ⟨-, -, free, -, -⟩ := hs
  have none_within : s.frameCount = 0 := by simp [State.frameCount, hc]
  have empty : s.freeList = [] := by
    refine List.eq_nil_iff_forall_not_mem.mpr fun f hf => ?_
    have := ((free f).mp hf).1
    omega
  have frame : ∀ f, (s.enterConfiguration l c).frame f = FrameRecord.initial := fun f => rfl
  have freeList : (s.enterConfiguration l c).freeList = [] := empty
  have count : (s.enterConfiguration l c).frameCount = c.frames := rfl
  have scrubQueue : (s.enterConfiguration l c).scrubQueue = List.range c.frames := rfl
  unfold State.FrameLaw
  simp only [frame, freeList, count, scrubQueue]
  exact ⟨List.nodup_nil, List.nodup_range, by simp [FrameRecord.initial], by simp [FrameRecord.initial],
    by simp [FrameRecord.initial]⟩

omit hs in
theorem reset : State.reset.FrameLaw := by
  have frame : ∀ f, State.reset.frame f = FrameRecord.initial := fun f => rfl
  unfold State.FrameLaw
  simp only [frame]
  exact ⟨List.nodup_nil, List.nodup_nil, by simp [State.reset, FrameRecord.initial],
    by simp [State.reset, State.frameCount, FrameRecord.initial], by simp [FrameRecord.initial]⟩

theorem moveRecord (id : Nat) (old new : RecallRecord) : (s.moveRecord id old new).FrameLaw := by
  refine hs.of_parts (hstate := fun f => ?_)
  rw [State.moveRecord_frame]
  split <;> rfl

theorem act (hm : s.MembershipSound) {lawful : Prop} (hact : State.Act lawful s t) : t.FrameLaw := by
  cases hact with
  | control ht =>
    rw [ht]
    exact hs.of_parts
  | port h _ => exact hs.of_parts
  | take _ => exact hs.of_parts
  | writeBlock b g =>
    obtain ⟨mem, blocks, written⟩ := s.writeBlock_parts b g
    rw [written]
    exact hs.of_parts
  | noteError b e =>
    rw [State.noteError_eq]
    exact hs.of_parts
  | turn n _ => exact hs.of_parts
  | scrubPos n _ => exact hs.of_parts
  | ort h l _ => exact hs.of_parts
  | window h i w _ => exact hs.of_parts
  | slot h i sl _ => exact hs.of_parts
  | frame f r hstate _ _ => exact hs.setFrame hstate
  | freeing f hheld => exact hs.freeing hheld
  | allocate h count label inh _ => exact hs.allocated h count label inh
  | serveHead _ => exact allocated hs.of_parts _ _ _ _
  | wait h d _ _ => exact hs.of_parts
  | unwait h => exact hs.of_parts
  | enterScrubbing f => exact hs.enterScrubbing f
  | scrubbed hq => exact hs.scrubbed hq
  | lowerOwned owner => cases owner <;> exact hs.of_parts
  | raiseOwned h _ => exact hs.of_parts
  | record id r _ => exact moveRecord (hs.setFrame (by rfl)) _ _ _
  | move _ _ => exact hs.moveRecord _ _ _
  | unrecord _ => exact setFrame hs.of_parts (by rfl)
  | offer i o _ => exact setFrame hs.of_parts (by rfl)
  | removeOffer _ => exact setFrame hs.of_parts (by rfl)
  | departure h d _ => exact hs.of_parts
  | depart h linkUp cause _ => exact hs.of_parts
  | endDeparture h cause _ => exact hs.of_parts
  | join h _ _ _ => exact hs.of_parts
  | linkUp h _ _ => exact hs.of_parts
  | detach h _ => exact hs.of_parts
  | leavingLinkDown h _ => exact hs.of_parts
  | configure l c _ hload _ _ _ => exact hs.configure l c (hm.load_iff.mp hload)
  | tick _ _ => exact hs.of_parts
  | reset => exact State.FrameLaw.reset.of_parts
  | release strap hr => exact hs.of_parts (hconfig := (hm.load_iff.mp (hm.load_of_reset hr)).symm)

end State.FrameLaw

/-- Settles O58: an act moves a frame from one place to another, or leaves every frame's place as it was. -/
theorem frameLawKept : Obligations.FrameLawKept := fun _ _ hm hs ht =>
  step_keeps_law (lawful := False) (fun _ _ hs => hs.of_parts) (fun _ _ => False.elim)
    (fun _ _ hact hm hs => hs.act hm hact) hm hs ht

/-! ### The quota -/

theorem State.waitEntry_eq_none_iff (s : State) (h : HostId) :
    s.waitEntry h = none ↔ ∀ e ∈ s.waitList, e.host ≠ h := by
  simp [State.waitEntry, List.find?_eq_none]

namespace State.QuotaLaw

variable {s t : State} (hs : s.QuotaLaw)
include hs

/-- Only the wait list and the counts bear on the law; owned counts may fall. -/
theorem of_parts (hlist : t.waitList = s.waitList := by rfl) (hwaiting : t.waiting = s.waiting := by rfl)
    (hconfig : t.config = s.config := by rfl)
    (howned : ∀ h, t.owned.get h ≤ s.owned.get h := by intro; exact Nat.le_refl _) : t.QuotaLaw := by
  obtain ⟨⟨hosts, counts, absent⟩, within⟩ := hs
  refine ⟨⟨?_, ?_, fun h hn => ?_⟩, fun h => ?_⟩
  · rw [hlist]
    exact hosts
  · rw [hlist, hwaiting]
    exact counts
  · rw [hwaiting]
    exact absent h (by rwa [State.waitEntry, hlist] at hn)
  · have quota : t.quotaOf h = s.quotaOf h := by rw [State.quotaOf, hconfig, State.quotaOf]
    rw [hwaiting, quota]
    exact Nat.le_trans (Nat.add_le_add_right (howned h) _) (within h)

/-- Frames are taken up within the quota. -/
theorem raiseOwned {h : HostId} {count : Nat} (hq : s.owned.get h + s.waiting.get h + count ≤ s.quotaOf h)
    (hlist : t.waitList = s.waitList := by rfl) (hwaiting : t.waiting = s.waiting := by rfl)
    (hconfig : t.config = s.config := by rfl)
    (howned : t.owned = s.owned.set h (s.owned.get h + count) := by rfl) : t.QuotaLaw := by
  obtain ⟨⟨hosts, counts, absent⟩, within⟩ := hs
  refine ⟨⟨?_, ?_, fun k hn => ?_⟩, fun k => ?_⟩
  · rw [hlist]
    exact hosts
  · rw [hlist, hwaiting]
    exact counts
  · rw [hwaiting]
    exact absent k (by rwa [State.waitEntry, hlist] at hn)
  · have quota : t.quotaOf k = s.quotaOf k := by rw [State.quotaOf, hconfig, State.quotaOf]
    rw [howned, hwaiting, quota, PerHost.get_set]
    split
    · next hk =>
      rw [hk]
      omega
    · exact within k

/-- The head of the wait list leaves it: what it waited for is no longer counted as waiting. -/
theorem leaveHead {e : WaitEntry} {rest : List WaitEntry} (hw : s.waitList = e :: rest) :
    ({ s with waitList := rest, waiting := s.waiting.set e.host 0 } : State).QuotaLaw ∧
      s.owned.get e.host + e.count ≤ s.quotaOf e.host := by
  obtain ⟨⟨hosts, counts, absent⟩, within⟩ := hs
  rw [hw, List.map_cons, List.nodup_cons] at hosts
  have other : ∀ x ∈ rest, x.host ≠ e.host := fun x hx heq => hosts.1 (heq ▸ List.mem_map_of_mem hx)
  refine ⟨⟨⟨hosts.2, fun x hx => ?_, fun h hn => ?_⟩, fun h => ?_⟩, ?_⟩
  · show (s.waiting.set e.host 0).get x.host = x.count
    rw [PerHost.get_set_ne _ _ (other x hx)]
    exact counts x (by simp [hw, hx])
  · show (s.waiting.set e.host 0).get h = 0
    rw [PerHost.get_set]
    split
    · rfl
    · next hne =>
      refine absent h ((s.waitEntry_eq_none_iff h).mpr fun x hx => ?_)
      rcases List.mem_cons.mp (hw ▸ hx) with rfl | hrest
      · exact fun heq => hne heq.symm
      · exact (State.waitEntry_eq_none_iff _ h).mp hn x hrest
  · show s.owned.get h + (s.waiting.set e.host 0).get h ≤ s.quotaOf h
    rw [PerHost.get_set]
    split
    · exact Nat.le_trans (Nat.le_add_right _ _) (within h)
    · exact within h
  · have waits : s.waiting.get e.host = e.count := counts e (by simp [hw])
    exact waits ▸ within e.host

theorem allocated {h : HostId} {count : Nat} (label : Option (BitVec 16)) (inh : Bool)
    (hq : s.owned.get h + s.waiting.get h + count ≤ s.quotaOf h) : (s.allocated h count label inh).QuotaLaw := by
  obtain ⟨frames, allocated⟩ := s.allocated_parts h count label inh
  rw [allocated]
  exact hs.raiseOwned hq

theorem servedHead {e : WaitEntry} {rest : List WaitEntry} (hw : s.waitList = e :: rest) :
    (s.servedHead e rest).QuotaLaw := by
  obtain ⟨left, fits⟩ := hs.leaveHead hw
  refine left.allocated e.label e.inheritFlag ?_
  show s.owned.get e.host + (s.waiting.set e.host 0).get e.host + e.count ≤ s.quotaOf e.host
  rw [PerHost.get_set_same]
  exact fits

theorem wait {h : HostId} {d : Desc} (hn : s.waitEntry h = none)
    (hq : s.owned.get h + s.waiting.get h + d.count ≤ s.quotaOf h) : (s.joinWaitList h d).QuotaLaw := by
  obtain ⟨⟨hosts, counts, absent⟩, within⟩ := hs
  have other := (s.waitEntry_eq_none_iff h).mp hn
  refine ⟨⟨?_, fun e he => ?_, fun k hk => ?_⟩, fun k => ?_⟩
  · show ((s.waitList ++ [(⟨h, d.tag, d.count, d.labelOf, d.inheritFlag⟩ : WaitEntry)]).map (·.host)).Nodup
    rw [List.map_append, List.nodup_append]
    refine ⟨hosts, by simp, ?_⟩
    simpa using other
  · show (s.waiting.set h d.count).get e.host = e.count
    rcases List.mem_append.mp he with old | new
    · rw [PerHost.get_set_ne _ _ (other e old)]
      exact counts e old
    · rw [List.mem_singleton.mp new]
      exact PerHost.get_set_same _ h _
  · have joined := (State.waitEntry_eq_none_iff _ k).mp hk
    have hkh : k ≠ h := fun heq => joined ⟨h, d.tag, d.count, d.labelOf, d.inheritFlag⟩ (by simp [joinWaitList]) heq.symm
    show (s.waiting.set h d.count).get k = 0
    rw [PerHost.get_set_ne _ _ hkh]
    exact absent k ((s.waitEntry_eq_none_iff k).mpr fun e he => joined e (by simp [joinWaitList, he]))
  · show s.owned.get k + (s.waiting.set h d.count).get k ≤ s.quotaOf k
    rw [PerHost.get_set]
    split
    · next hk =>
      rw [hk]
      omega
    · exact within k

theorem unwait (h : HostId) : (s.removeWaiting h).QuotaLaw := by
  obtain ⟨⟨hosts, counts, absent⟩, within⟩ := hs
  have kept : ∀ e, e ∈ (s.removeWaiting h).waitList ↔ e ∈ s.waitList ∧ e.host ≠ h := by
    intro e
    simp [State.removeWaiting]
  refine ⟨⟨hosts.sublist (List.filter_sublist.map _), fun e he => ?_, fun k hk => ?_⟩, fun k => ?_⟩
  · obtain ⟨listed, hne⟩ := (kept e).mp he
    show (s.waiting.set h 0).get e.host = e.count
    rw [PerHost.get_set_ne _ _ hne]
    exact counts e listed
  · show (s.waiting.set h 0).get k = 0
    rw [PerHost.get_set]
    split
    · rfl
    · next hkh =>
      refine absent k ((s.waitEntry_eq_none_iff k).mpr fun e he heq => ?_)
      exact (State.waitEntry_eq_none_iff _ k).mp hk e ((kept e).mpr ⟨he, fun hh => hkh (heq.symm.trans hh)⟩) heq
  · show s.owned.get k + (s.waiting.set h 0).get k ≤ s.quotaOf k
    rw [PerHost.get_set]
    split
    · exact Nat.le_trans (Nat.le_add_right _ _) (within k)
    · exact within k

theorem lowerOwned (owner : Option HostId) : (s.lowerOwned owner).QuotaLaw := by
  cases owner with
  | none => exact hs
  | some o =>
    refine hs.of_parts (howned := fun h => ?_)
    show (s.owned.set o (s.owned.get o - 1)).get h ≤ s.owned.get h
    rw [PerHost.get_set]
    split
    · next hh =>
      rw [hh]
      exact Nat.sub_le _ _
    · exact Nat.le_refl _

theorem enterScrubbing (f : Nat) : (s.enterScrubbing f).QuotaLaw := by
  refine hs.of_parts ?_ ?_ ?_ (s.enterScrubbing_owned_le f)
  all_goals rw [State.enterScrubbing_eq]

/-- Before there is a configuration nothing is owned and nothing waits. -/
theorem configure (l : LoadState) (c : Configuration) (hc : s.config = none) :
    (s.enterConfiguration l c).QuotaLaw := by
  obtain ⟨sound, within⟩ := hs
  refine ⟨sound, fun h => ?_⟩
  have none_owned : s.owned.get h + s.waiting.get h ≤ 0 := by simpa [State.quotaOf, hc] using within h
  exact Nat.le_trans none_owned (Nat.zero_le _)

omit hs in
theorem reset : State.reset.QuotaLaw := by
  refine ⟨⟨List.nodup_nil, by simp [State.reset], fun h _ => ?_⟩, fun h => ?_⟩ <;> simp [State.reset]

theorem act (hm : s.MembershipSound) {lawful : Prop} (hact : State.Act lawful s t) : t.QuotaLaw := by
  cases hact with
  | control ht =>
    rw [ht]
    exact hs.of_parts
  | port h _ => exact hs.of_parts
  | take _ => exact hs.of_parts
  | writeBlock b g =>
    obtain ⟨mem, blocks, written⟩ := s.writeBlock_parts b g
    rw [written]
    exact hs.of_parts
  | noteError b e =>
    rw [State.noteError_eq]
    exact hs.of_parts
  | turn n _ => exact hs.of_parts
  | scrubPos n _ => exact hs.of_parts
  | ort h l _ => exact hs.of_parts
  | window h i w _ => exact hs.of_parts
  | slot h i sl _ => exact hs.of_parts
  | frame f r _ _ _ => exact hs.of_parts
  | freeing f _ => exact hs.of_parts
  | allocate h count label inh hq => exact hs.allocated label inh hq
  | serveHead hw => exact hs.servedHead hw
  | wait h d hn hq => exact hs.wait hn hq
  | unwait h => exact hs.unwait h
  | enterScrubbing f => exact hs.enterScrubbing f
  | scrubbed _ => exact hs.of_parts
  | lowerOwned owner => exact hs.lowerOwned owner
  | raiseOwned h hq => exact hs.raiseOwned (count := 1) hq
  | record id r _ =>
    obtain ⟨frames, recalls, checks, recorded⟩ := s.recorded_parts id r
    rw [recorded]
    exact hs.of_parts
  | move _ _ => exact hs.of_parts
  | unrecord _ => exact hs.of_parts
  | offer i o _ => exact hs.of_parts
  | removeOffer _ => exact hs.of_parts
  | departure h d _ => exact hs.of_parts
  | depart h linkUp cause _ => exact hs.of_parts
  | endDeparture h cause _ => exact hs.of_parts
  | join h _ _ _ => exact hs.of_parts
  | linkUp h _ _ => exact hs.of_parts
  | detach h _ => exact hs.of_parts
  | leavingLinkDown h _ => exact hs.of_parts
  | configure l c _ hload _ _ _ => exact hs.configure l c (hm.load_iff.mp hload)
  | tick _ _ => exact hs.of_parts
  | reset => exact State.QuotaLaw.reset.of_parts
  | release strap hr => exact hs.of_parts (hconfig := (hm.load_iff.mp (hm.load_of_reset hr)).symm)

end State.QuotaLaw

/-- Settles O59: an act raises a host's counts only within its quota, and keeps the wait list's counts with its entries. -/
theorem quotaLawKept : Obligations.QuotaLawKept := fun _ _ hm hs ht =>
  step_keeps_law (lawful := False) (fun _ _ hs => hs.of_parts) (fun _ _ => False.elim)
    (fun _ _ hact hm hs => hs.act hm hact) hm hs ht

end Sys2Proof.Machine
end

section
/-! SUPPORT. Every act keeps at most one record for each frame and host, and none beside an open offer (R45, with R12, R44
and R70). -/

namespace Sys2Proof.Machine

set_option Elab.async false

/-! ### Records and offers entered and removed -/

theorem mem_joinRecallSet (id j : Nat) (l : List Nat) : j ∈ joinRecallSet id l ↔ j = id ∨ j ∈ l := by
  unfold joinRecallSet
  split
  · next hid =>
    refine ⟨Or.inr, ?_⟩
    rintro (rfl | hj)
    · exact hid
    · exact hj
  · exact mem_insertRanked _ _ _ _

variable (s : State)

theorem State.recorded_record (id : Nat) (r : RecallRecord) (j : Nat) :
    (s.recorded id r).record j = if j = id then some r else s.record j := by
  rw [State.recorded, State.moveRecord_record]
  rfl

/-- The frame of a new record lists its id, with the closing flags of the targets created in CLOSING (R12, R47). -/
theorem State.recorded_frame (id : Nat) (r : RecallRecord) (f : Nat) :
    (s.recorded id r).frame f =
      if f = r.frame then
        { s.frame f with
          recallSet := joinRecallSet id (s.frame f).recallSet
          closing := PerHost.make (fun k => (s.frame f).closing.get k || decide (r.targets.get k = some .closing)) }
      else s.frame f := by
  rw [State.recorded, State.moveRecord_frame, State.updFrame_eq, State.setFrame_frame]
  split
  · next hf =>
    subst hf
    simp
  · rfl

theorem State.recorded_offerSlot (id : Nat) (r : RecallRecord) (i : Nat) :
    (s.recorded id r).offerSlot i = s.offerSlot i := by
  rw [State.recorded, State.moveRecord_offerSlot, State.updFrame_eq, State.setFrame_offerSlot]

theorem State.unrecorded_record (id f j : Nat) :
    (s.unrecorded id f).record j = if j = id then none else s.record j := by
  rw [State.unrecorded, State.updFrame_eq, State.setFrame_record, State.setRecord_record]

theorem State.unrecorded_frame (id f g : Nat) :
    (s.unrecorded id f).frame g =
      if g = f then { s.frame g with recallSet := (s.frame g).recallSet.filter (fun j => j != id) } else s.frame g := by
  rw [State.unrecorded, State.updFrame_eq, State.setFrame_frame]
  split
  · next hg => rw [hg, State.setRecord_frame]
  · rfl

theorem State.offered_offerSlot (i : Nat) (o : Offer) (j : Nat) :
    (s.offered i o).offerSlot j = if j = i then ⟨(s.offerSlot i).serial, some o⟩ else s.offerSlot j := by
  rw [State.offered, State.updFrame_eq, State.setFrame_offerSlot, State.setOfferSlot_offerSlot]

theorem State.offered_frame (i : Nat) (o : Offer) (f : Nat) :
    (s.offered i o).frame f =
      if f = o.frame then { s.frame f with offer := some ⟨i, (s.offerSlot i).serial⟩ } else s.frame f := by
  rw [State.offered, State.updFrame_eq, State.setFrame_frame]
  split
  · next hf => rw [hf, State.setOfferSlot_frame]
  · rfl

theorem State.removeOffer_offerSlot (i : Nat) (o : Offer) (j : Nat) :
    (s.removeOffer i o).offerSlot j = if j = i then ⟨(s.offerSlot i).serial + 1, none⟩ else s.offerSlot j := by
  rw [State.removeOffer_eq, State.setFrame_offerSlot, State.setOfferSlot_offerSlot]

theorem State.removeOffer_frame (i : Nat) (o : Offer) (f : Nat) :
    (s.removeOffer i o).frame f = if f = o.frame then { s.frame f with offer := none } else s.frame f := by
  rw [State.removeOffer_eq, State.setFrame_frame]
  split
  · next hf => rw [hf]
  · rfl

/-! ### The law -/

namespace State.RecallLaw

variable {s} {t : State} (hs : s.RecallLaw)
include hs

/-- Only the records, the open offers, the offer fields and the recall sets bear on the law. -/
theorem of_parts (hframe : ∀ f, (t.frame f).offer = (s.frame f).offer ∧ (t.frame f).recallSet = (s.frame f).recallSet :=
      by intro; exact ⟨rfl, rfl⟩)
    (hrecord : ∀ id, t.record id = s.record id := by intro; rfl)
    (hslot : ∀ i, t.offerSlot i = s.offerSlot i := by intro; rfl)
    (hconfig : t.config = none → s.config = none := by exact id) : t.RecallLaw := by
  obtain ⟨one, ids, sets, slots, fields, before⟩ := hs
  have hoffer := fun f => (hframe f).1
  have hset := fun f => (hframe f).2
  unfold State.RecallLaw State.OneRecallEach
  simp only [hrecord, hslot, hoffer, hset]
  exact ⟨one, ids, sets, slots, fields, fun hc => before (hconfig hc)⟩

theorem setFrame {f : Nat} {r : FrameRecord} (hoffer : r.offer = (s.frame f).offer)
    (hset : r.recallSet = (s.frame f).recallSet) : (s.setFrame f r).RecallLaw := by
  refine hs.of_parts (hframe := fun g => ?_)
  rw [State.setFrame_frame]
  split
  · next hg =>
    rw [hg]
    exact ⟨hoffer, hset⟩
  · exact ⟨rfl, rfl⟩

/-- Records that advance or go away withdraw no access anew. -/
theorem one_of_advances (hrecord : ∀ j q', t.record j = some q' → ∃ q, s.record j = some q ∧ q.Advances q') :
    t.OneRecallEach := by
  obtain ⟨one, -⟩ := hs
  intro i j ri rj hi hj hframe k hik hjk
  obtain ⟨qi, hqi, advI⟩ := hrecord i ri hi
  obtain ⟨qj, hqj, advJ⟩ := hrecord j rj hj
  exact one i j qi qj hqi hqj (advI.frame.symm.trans (hframe.trans advJ.frame)) k (advI.undrained k hik)
    (advJ.undrained k hjk)

theorem move {id : Nat} {old new : RecallRecord} (hid : s.record id = some old) (hnew : old.Advances new) :
    (s.moveRecord id old new).RecallLaw := by
  have frame : ∀ f, ((s.moveRecord id old new).frame f).offer = (s.frame f).offer ∧
      ((s.moveRecord id old new).frame f).recallSet = (s.frame f).recallSet := by
    intro f
    rw [State.moveRecord_frame]
    split <;> exact ⟨rfl, rfl⟩
  have one : (s.moveRecord id old new).OneRecallEach := by
    refine hs.one_of_advances fun j q hq => ?_
    rw [State.moveRecord_record] at hq
    split at hq
    · next hj =>
      cases hq
      exact ⟨old, hj ▸ hid, hnew⟩
    · exact ⟨q, hq, rfl, fun _ hk => hk, Or.inl rfl⟩
  obtain ⟨-, ids, sets, slots, fields, before⟩ := hs
  refine ⟨one, fun j q hq => ?_, fun f j => ?_, fun i o ho => ?_, fun f hd hoffer => ?_, fun hc => ?_⟩
  · rw [State.moveRecord_record] at hq
    split at hq
    · next hj => exact hj ▸ ids id old hid
    · exact ids j q hq
  · rw [(frame f).2, sets, State.moveRecord_record]
    split
    · next hj => simp [hj, hid, hnew.frame]
    · rfl
  · rw [(frame o.frame).1]
    exact slots i o ho
  · rw [(frame f).1] at hoffer
    rw [(frame f).2]
    exact fields f hd hoffer
  · exact absurd ((before hc).1 id) (by simp [hid])

theorem record {id : Nat} {r : RecallRecord} (hm : s.MembershipSound) (hr : s.MayOpen True id r) :
    (s.recorded id r).RecallLaw := by
  obtain ⟨room, unused, ⟨h, member⟩, -, unoffered, alone⟩ := hr
  replace unoffered := unoffered trivial
  replace alone := alone trivial
  have configured := hm.config_of_member member
  obtain ⟨one, ids, sets, slots, fields, -⟩ := hs
  have offer : ∀ f, ((s.recorded id r).frame f).offer = (s.frame f).offer := by
    intro f
    rw [State.recorded_frame]
    split <;> rfl
  refine ⟨fun i j ri rj hi hj hframe k hik hjk => ?_, fun j q hq => ?_, fun f j => ?_, fun i o ho => ?_,
    fun f hd hoffer => ?_, fun hc => ?_⟩
  · rw [State.recorded_record] at hi hj
    split at hi <;> split at hj
    · next hi' hj' => exact hi'.trans hj'.symm
    · cases hi
      simp [alone j rj k hj hframe.symm hik] at hjk
    · cases hj
      simp [alone i ri k hi hframe hjk] at hik
    · exact one i j ri rj hi hj hframe k hik hjk
  · rw [State.recorded_record] at hq
    split at hq
    · next hj => exact hj ▸ room
    · exact ids j q hq
  · rw [State.recorded_record, State.recorded_frame]
    by_cases hf : f = r.frame
    · rw [if_pos hf, mem_joinRecallSet, sets]
      by_cases hj : j = id
      · simp [hj, hf]
      · simp [hj]
    · rw [if_neg hf, sets]
      split
      · next hj =>
        rw [hj, unused]
        simp [Ne.symm hf]
      · rfl
  · rw [State.recorded_offerSlot] at ho ⊢
    rw [offer]
    exact slots i o ho
  · rw [offer] at hoffer
    have other : f ≠ r.frame := by
      rintro rfl
      simp [unoffered] at hoffer
    rw [State.recorded_offerSlot, State.recorded_frame, if_neg other]
    exact fields f hd hoffer
  · obtain ⟨frames, recalls, checks, recorded⟩ := s.recorded_parts id r
    rw [recorded] at hc
    exact absurd hc configured

theorem unrecord {id : Nat} {r : RecallRecord} (hid : s.record id = some r) : (s.unrecorded id r.frame).RecallLaw := by
  have one : (s.unrecorded id r.frame).OneRecallEach := by
    refine hs.one_of_advances fun j q hq => ?_
    rw [State.unrecorded_record] at hq
    split at hq
    · cases hq
    · exact ⟨q, hq, rfl, fun _ hk => hk, Or.inl rfl⟩
  have offer : ∀ f, ((s.unrecorded id r.frame).frame f).offer = (s.frame f).offer := by
    intro f
    rw [State.unrecorded_frame]
    split <;> rfl
  obtain ⟨-, ids, sets, slots, fields, before⟩ := hs
  refine ⟨one, fun j q hq => ?_, fun f j => ?_, fun i o ho => ?_, fun f hd hoffer => ?_, fun hc => ?_⟩
  · rw [State.unrecorded_record] at hq
    split at hq
    · cases hq
    · exact ids j q hq
  · rw [State.unrecorded_record, State.unrecorded_frame]
    by_cases hj : j = id
    · rw [if_pos hj]
      by_cases hf : f = r.frame
      · simp [hf, hj]
      · rw [if_neg hf, sets, hj, hid]
        simp [Ne.symm hf]
    · rw [if_neg hj, ← sets]
      split
      · simp [hj]
      · rfl
  · rw [offer]
    exact slots i o ho
  · rw [offer] at hoffer
    obtain ⟨unrecalled, slot⟩ := fields f hd hoffer
    refine ⟨?_, slot⟩
    rw [State.unrecorded_frame]
    split <;> simp [unrecalled]
  · exact absurd ((before hc).1 id) (by simp [hid])

theorem offer {i : Nat} {o : Offer} (hm : s.MembershipSound) (ho : s.MayOffer i o) : (s.offered i o).RecallLaw := by
  obtain ⟨room, unused, ⟨h, member⟩, -, unoffered, unrecalled⟩ := ho
  have configured := hm.config_of_member member
  obtain ⟨one, ids, sets, slots, fields, -⟩ := hs
  refine ⟨one, ids, fun f j => ?_, fun j q hq => ?_, fun f hd hoffer => ?_, fun hc => absurd hc configured⟩
  · refine Iff.trans ?_ (sets f j)
    rw [State.offered_frame]
    split <;> rfl
  · rw [State.offered_offerSlot] at hq ⊢
    rw [State.offered_frame]
    split at hq
    · next hj =>
      cases hq
      rw [if_pos rfl, if_pos hj, hj]
      exact ⟨room, rfl⟩
    · next hj =>
      obtain ⟨hlt, named⟩ := slots j q hq
      rw [if_neg hj, if_neg]
      · exact ⟨hlt, named⟩
      · intro hframe
        rw [hframe, unoffered] at named
        cases named
  · rw [State.offered_frame] at hoffer ⊢
    split at hoffer
    · next hf =>
      cases hoffer
      rw [State.offered_offerSlot, if_pos rfl, if_pos hf]
      exact ⟨by rw [hf]; exact unrecalled, o, rfl, hf.symm⟩
    · next hf =>
      obtain ⟨unrecalled', q, slot, hq⟩ := fields f hd hoffer
      rw [State.offered_offerSlot, if_neg hf, if_neg]
      · exact ⟨unrecalled', q, slot, hq⟩
      · intro hslot
        rw [← hslot, slot] at unused
        cases unused

theorem removeOffer {i : Nat} {o : Offer} (ho : (s.offerSlot i).offer = some o) : (s.removeOffer i o).RecallLaw := by
  obtain ⟨one, ids, sets, slots, fields, before⟩ := hs
  refine ⟨one, ids, fun f j => ?_, fun j q hq => ?_, fun f hd hoffer => ?_, fun hc => ?_⟩
  · refine Iff.trans ?_ (sets f j)
    rw [State.removeOffer_frame]
    split <;> rfl
  · rw [State.removeOffer_offerSlot] at hq ⊢
    rw [State.removeOffer_frame]
    split at hq
    · cases hq
    · next hj =>
      obtain ⟨hlt, named⟩ := slots j q hq
      rw [if_neg hj, if_neg]
      · exact ⟨hlt, named⟩
      · intro hframe
        rw [hframe, (slots i o ho).2] at named
        cases named
        exact hj rfl
  · rw [State.removeOffer_frame] at hoffer ⊢
    split at hoffer
    · cases hoffer
    · next hf =>
      obtain ⟨unrecalled, q, slot, hq⟩ := fields f hd hoffer
      rw [State.removeOffer_offerSlot, if_neg hf, if_neg]
      · exact ⟨unrecalled, q, slot, hq⟩
      · intro hslot
        rw [← hslot, slot] at ho
        cases ho
        exact hf hq.symm
  · exact absurd ((before hc).2 i) (by simp [ho])

theorem allocated (h : HostId) (count : Nat) (label : Option (BitVec 16)) (inh : Bool) :
    (s.allocated h count label inh).RecallLaw := by
  have frame := s.allocated_frame h count label inh
  obtain ⟨frames, allocated⟩ := s.allocated_parts h count label inh
  refine hs.of_parts (hframe := fun f => ?_) (hrecord := ?_) (hslot := ?_) (hconfig := ?_)
  · rw [frame]
    split <;> exact ⟨rfl, rfl⟩
  · rw [allocated]
    exact fun _ => rfl
  · rw [allocated]
    exact fun _ => rfl
  · rw [allocated]
    exact id

theorem enterScrubbing (f : Nat) : (s.enterScrubbing f).RecallLaw := by
  have frame := s.enterScrubbing_frame f
  have kept := State.enterScrubbing_eq s f
  refine hs.of_parts (hframe := fun g => ?_) (hrecord := ?_) (hslot := ?_) (hconfig := ?_)
  · rw [frame]
    split
    · next hg =>
      rw [hg.1]
      exact ⟨rfl, rfl⟩
    · exact ⟨rfl, rfl⟩
  · rw [kept]
    exact fun _ => rfl
  · rw [kept]
    exact fun _ => rfl
  · rw [kept]
    exact id

/-- A load ends before there is a configuration: there is neither a record nor an open offer. -/
theorem configure (l : LoadState) (c : Configuration) (hc : s.config = none) :
    (s.enterConfiguration l c).RecallLaw := by
  obtain ⟨one, ids, -, -, -, before⟩ := hs
  obtain ⟨noRecord, noOffer⟩ := before hc
  have frame : ∀ f, (s.enterConfiguration l c).frame f = FrameRecord.initial := fun _ => rfl
  refine ⟨one, ids, fun f j => ?_, fun i o ho => ?_, fun f hd hoffer => ?_, fun hc => by cases hc⟩
  · rw [frame]
    refine iff_of_false (by simp [FrameRecord.initial]) ?_
    rintro ⟨r, hr, -⟩
    rw [show (s.enterConfiguration l c).record j = s.record j from rfl, noRecord j] at hr
    cases hr
  · rw [show (s.enterConfiguration l c).offerSlot i = s.offerSlot i from rfl, noOffer i] at ho
    cases ho
  · rw [frame] at hoffer
    cases hoffer

omit hs in
theorem reset : State.reset.RecallLaw := by
  have record : ∀ id, State.reset.record id = none := fun _ => rfl
  have slot : ∀ i, State.reset.offerSlot i = OfferSlot.initial := fun _ => rfl
  have frame : ∀ f, State.reset.frame f = FrameRecord.initial := fun _ => rfl
  unfold State.RecallLaw State.OneRecallEach
  simp [record, slot, frame, OfferSlot.initial, FrameRecord.initial]

theorem act (hm : s.MembershipSound) (hact : State.Act True s t) : t.RecallLaw := by
  cases hact with
  | control ht =>
    rw [ht]
    exact hs.of_parts
  | port h _ => exact hs.of_parts
  | take _ => exact hs.of_parts
  | writeBlock b g =>
    obtain ⟨mem, blocks, written⟩ := s.writeBlock_parts b g
    rw [written]
    exact hs.of_parts
  | noteError b e =>
    rw [State.noteError_eq]
    exact hs.of_parts
  | turn n _ => exact hs.of_parts
  | scrubPos n _ => exact hs.of_parts
  | ort h l _ => exact hs.of_parts
  | window h i w _ => exact hs.of_parts
  | slot h i sl _ => exact hs.of_parts
  | frame f r _ hoffer hset => exact hs.setFrame hoffer hset
  | freeing f _ => exact hs.setFrame rfl rfl
  | allocate h count label inh _ => exact hs.allocated h count label inh
  | serveHead _ => exact allocated hs.of_parts _ _ _ _
  | wait h d _ _ => exact hs.of_parts
  | unwait h => exact hs.of_parts
  | enterScrubbing f => exact hs.enterScrubbing f
  | @scrubbed f rest _ =>
    exact of_parts (hs.setFrame (f := f) (r := { s.frame f with state := .free, damaged := false }) rfl rfl)
  | lowerOwned owner => cases owner <;> exact hs.of_parts
  | raiseOwned h _ => exact hs.of_parts
  | record id r hr => exact hs.record hm hr
  | move hid hnew => exact hs.move hid hnew
  | unrecord hid => exact hs.unrecord hid
  | offer i o ho => exact hs.offer hm ho
  | removeOffer ho => exact hs.removeOffer ho
  | departure h d _ => exact hs.of_parts
  | depart h linkUp cause _ => exact hs.of_parts
  | endDeparture h cause _ => exact hs.of_parts
  | join h _ _ _ => exact hs.of_parts
  | linkUp h _ _ => exact hs.of_parts
  | detach h _ => exact hs.of_parts
  | leavingLinkDown h _ => exact hs.of_parts
  | configure l c _ hload _ _ _ => exact hs.configure l c (hm.load_iff.mp hload)
  | tick _ _ => exact hs.of_parts
  | reset => exact State.RecallLaw.reset.of_parts
  | release strap hr => exact hs.of_parts (hconfig := fun _ => hm.load_iff.mp (hm.load_of_reset hr))

end State.RecallLaw

/-- Settles O60: a record is opened only where no other withdraws the access of its targets and no offer is open, and an
offer only where there is neither offer nor record. -/
theorem recallLawKept : Obligations.RecallLawKept := fun _ _ hm hs ht =>
  step_keeps_law (lawful := True) (fun _ _ hs => hs.of_parts) (fun _ hs _ => hs)
    (fun _ _ hact hm hs => hs.act hm hact) hm hs ht

end Sys2Proof.Machine
end

section
/-! SUPPORT. Every act keeps every moment of the Timebase ahead of the counter (R160, R164, R165), and what a TICK takes. -/

namespace Sys2Proof.Machine

set_option Elab.async false

/-! ### Deadlines -/

/-- A deadline set ahead by a grace or lifetime lies that far ahead. -/
theorem deadlineAfter_ahead (now : BitVec 32) {ticks : Nat} (h : ticks ≤ 65535) :
    (deadlineAfter now ticks - now).toNat ≤ 65535 := by
  have ahead : deadlineAfter now ticks - now = BitVec.ofNat 32 ticks := by
    rw [deadlineAfter]
    bv_omega
  rw [ahead, BitVec.toNat_ofNat]
  omega

/-- A deadline ahead of the counter and not reached lies ahead of the next counter value. -/
theorem deadline_ahead_next {now dl : BitVec 32} (hahead : (dl - now).toNat ≤ 65535)
    (hnot : deadlineReached now dl = false) : (dl - (now + 1)).toNat ≤ 65535 := by
  have hnot : 2 ^ 31 ≤ (now - dl).toNat := by simpa [deadlineReached] using hnot
  bv_omega

/-- Of the ticks up to a deadline, the last reaches it and none before (R165). -/
theorem deadlineReached_iff_last (now : BitVec 32) {ticks n : Nat} (hlast : ticks ≤ 65535) (hn : n ≤ ticks) :
    deadlineReached (now + BitVec.ofNat 32 n) (deadlineAfter now ticks) = true ↔ n = ticks := by
  have gap : now + BitVec.ofNat 32 n - deadlineAfter now ticks = BitVec.ofNat 32 n - BitVec.ofNat 32 ticks := by
    rw [deadlineAfter]
    bv_omega
  rw [deadlineReached_iff, gap, BitVec.toNat_sub, BitVec.toNat_ofNat, BitVec.toNat_ofNat]
  omega

/-! ### No moment passed -/

theorem State.graceOf_le {s : State} (hg : ∀ c, s.config = some c → c.grace ≤ 65535) {time : Nat} (h : time ≤ 65535) :
    s.graceOf time ≤ 65535 := by
  unfold State.graceOf
  split
  · split
    · next c hc => exact hg c hc
    · exact Nat.zero_le _
  · exact h

theorem State.lifetimeOf_le {s : State} (hl : ∀ c, s.config = some c → c.lifetime ≤ 65535) {time : Nat}
    (h : time ≤ 65535) : s.lifetimeOf time ≤ 65535 := by
  unfold State.lifetimeOf
  split
  · split
    · next c hc => exact hl c hc
    · exact Nat.zero_le _
  · exact h

namespace State.NonePassed

variable {s t : State} (hs : s.NonePassed)
include hs

/-- Only the load, the counter, the configuration, the deadlines of records and the open offers bear on the law; a deadline
or an offer that ceases does no harm. -/
theorem of_parts (hload : t.load = s.load := by rfl) (htick : t.tick = s.tick := by rfl)
    (hconfig : t.config = s.config := by rfl)
    (hrecord : ∀ id r dl, t.record id = some r → r.deadline = some dl →
      ∃ q, s.record id = some q ∧ q.deadline = some dl := by exact fun _ _ _ hr hdl => ⟨_, hr, hdl⟩)
    (hoffer : ∀ i o, (t.offerSlot i).offer = some o → (s.offerSlot i).offer = some o := by exact fun _ _ ho => ho) :
    t.NonePassed := by
  obtain ⟨load, config, record, offer⟩ := hs
  refine ⟨?_, ?_, fun id r dl hr hdl => ?_, fun i o ho => ?_⟩
  · rwa [hload, htick]
  · rwa [hconfig]
  · obtain ⟨q, hq, hqdl⟩ := hrecord id r dl hr hdl
    rw [hconfig, htick]
    exact record id q dl hq hqdl
  · rw [hconfig, htick]
    exact offer i o (hoffer i o ho)

theorem record (hm : s.MembershipSound) {id : Nat} {r : RecallRecord} (hr : s.MayOpen False id r) :
    (s.recorded id r).NonePassed := by
  obtain ⟨load, config, record, offer⟩ := hs
  obtain ⟨frames, recalls, checks, parts⟩ := s.recorded_parts id r
  obtain ⟨h, member⟩ := hr.member
  have tick : (s.recorded id r).tick = s.tick := by rw [parts]
  have sameConfig : (s.recorded id r).config = s.config := by rw [parts]
  refine ⟨?_, ?_, fun j q dl hq hdl => ?_, fun i o ho => ?_⟩
  · rw [parts]
    exact load
  · rw [parts]
    exact config
  · rw [sameConfig, tick]
    rw [State.recorded_record] at hq
    split at hq
    · next hj =>
      cases hq
      obtain ⟨time, bound, set⟩ := hr.deadline dl hdl
      rw [hj, set]
      exact ⟨hr.room, hm.config_of_member member,
        deadlineAfter_ahead _ (State.graceOf_le (fun c hc => (config c hc).1) bound)⟩
    · exact record j q dl hq hdl
  · rw [sameConfig, tick]
    rw [State.recorded_offerSlot] at ho
    exact offer i o ho

theorem move {id : Nat} {old new : RecallRecord} (hid : s.record id = some old) (hnew : old.Advances new) :
    (s.moveRecord id old new).NonePassed := by
  refine hs.of_parts (hrecord := fun j q dl hq hdl => ?_)
  rw [State.moveRecord_record] at hq
  split at hq
  · next hj =>
    cases hq
    rcases hnew.deadline with same | ceased
    · exact ⟨old, hj ▸ hid, same ▸ hdl⟩
    · rw [ceased] at hdl
      cases hdl
  · exact ⟨q, hq, hdl⟩

theorem unrecord (id f : Nat) : (s.unrecorded id f).NonePassed := by
  refine hs.of_parts (hrecord := fun j q dl hq hdl => ?_)
  rw [State.unrecorded_record] at hq
  split at hq
  · cases hq
  · exact ⟨q, hq, hdl⟩

theorem offer (hm : s.MembershipSound) {i : Nat} {o : Offer} (ho : s.MayOffer i o) : (s.offered i o).NonePassed := by
  obtain ⟨load, config, record, offer⟩ := hs
  obtain ⟨h, member⟩ := ho.member
  refine ⟨load, config, record, fun j q hq => ?_⟩
  rw [State.offered_offerSlot] at hq
  split at hq
  · next hj =>
    cases hq
    obtain ⟨time, bound, set⟩ := ho.deadline
    rw [hj, set]
    exact ⟨ho.room, hm.config_of_member member,
      deadlineAfter_ahead _ (State.lifetimeOf_le (fun c hc => (config c hc).2) bound)⟩
  · exact offer j q hq

theorem removeOffer (i : Nat) (o : Offer) : (s.removeOffer i o).NonePassed := by
  refine hs.of_parts (hoffer := fun j q hq => ?_)
  rw [State.removeOffer_offerSlot] at hq
  split at hq
  · cases hq
  · exact hq

/-- Without a configuration neither a record with a deadline nor an open offer stands. -/
theorem without_config (hc : s.config = none) :
    (∀ id r dl, s.record id = some r → r.deadline ≠ some dl) ∧ ∀ i o, (s.offerSlot i).offer ≠ some o := by
  obtain ⟨-, -, record, offer⟩ := hs
  exact ⟨fun id r dl hr hdl => (record id r dl hr hdl).2.1 hc, fun i o ho => (offer i o ho).2.1 hc⟩

theorem configure {l : LoadState} {c : Configuration} (hc : s.config = none) (hl : l ≠ .loading)
    (hg : c.grace ≤ 65535) (ht : c.lifetime ≤ 65535) : (s.enterConfiguration l c).NonePassed := by
  obtain ⟨noRecord, noOffer⟩ := hs.without_config hc
  refine ⟨fun hload => absurd hload hl, fun d hd => ?_, fun id r dl hr hdl => ?_, fun i o ho => ?_⟩
  · cases hd
    exact ⟨hg, ht⟩
  · exact absurd hdl (noRecord id r dl hr)
  · exact absurd ho (noOffer i o)

theorem tick (hdue : s.NothingDue) : ({ s with tick := s.tick + 1 } : State).NonePassed := by
  obtain ⟨load, config, record, offer⟩ := hs
  refine ⟨fun hl => ?_, config, fun id r dl hr hdl => ?_, fun i o ho => ?_⟩
  · have bound := load hl
    have before : s.tick.toNat ≠ 100 := hdue.load hl
    show (s.tick + 1).toNat ≤ 100
    bv_omega
  · obtain ⟨room, hc, ahead⟩ := record id r dl hr hdl
    exact ⟨room, hc, deadline_ahead_next ahead (hdue.record id r dl room hr hdl)⟩
  · obtain ⟨room, hc, ahead⟩ := offer i o ho
    exact ⟨room, hc, deadline_ahead_next ahead (hdue.offer i o room ho)⟩

omit hs in
theorem reset : State.reset.NonePassed := by
  refine ⟨fun _ => (by decide), fun c hc => (by cases hc), fun id r dl hr _ => ?_, fun i o ho => ?_⟩
  · cases (show State.reset.record id = none from rfl).symm.trans hr
  · cases (show (State.reset.offerSlot i).offer = none from rfl).symm.trans ho

/-- The Timebase begins at 0 without a configuration, and so without a deadline. -/
theorem release (strap : BitVec 2) (hc : s.config = none) :
    ({ s with
      resetAsserted := false, strap := strap, tick := 0, load := .loading, config := none, promSelect := true }
      : State).NonePassed := by
  obtain ⟨noRecord, noOffer⟩ := hs.without_config hc
  exact ⟨fun _ => Nat.zero_le _, fun c hc => (by cases hc), fun id r dl hr hdl => absurd hdl (noRecord id r dl hr),
    fun i o ho => absurd ho (noOffer i o)⟩

theorem act (hm : s.MembershipSound) (hact : State.Act False s t) : t.NonePassed := by
  cases hact with
  | control ht =>
    rw [ht]
    exact hs.of_parts
  | port h _ => exact hs.of_parts
  | take _ => exact hs.of_parts
  | writeBlock b g =>
    obtain ⟨mem, blocks, written⟩ := s.writeBlock_parts b g
    rw [written]
    exact hs.of_parts
  | noteError b e =>
    rw [State.noteError_eq]
    exact hs.of_parts
  | turn n _ => exact hs.of_parts
  | scrubPos n _ => exact hs.of_parts
  | ort h l _ => exact hs.of_parts
  | window h i w _ => exact hs.of_parts
  | slot h i sl _ => exact hs.of_parts
  | frame f r _ _ _ => exact hs.of_parts
  | freeing f _ => exact hs.of_parts
  | allocate h count label inh _ =>
    obtain ⟨frames, allocated⟩ := s.allocated_parts h count label inh
    rw [allocated]
    exact hs.of_parts
  | @serveHead e rest _ =>
    obtain ⟨frames, allocated⟩ :=
      ({ s with waitList := rest, waiting := s.waiting.set e.host 0 } : State).allocated_parts e.host e.count e.label
        e.inheritFlag
    rw [State.servedHead, allocated]
    exact hs.of_parts
  | wait h d _ _ => exact hs.of_parts
  | unwait h => exact hs.of_parts
  | enterScrubbing f =>
    rw [State.enterScrubbing_eq]
    exact hs.of_parts
  | scrubbed _ => exact hs.of_parts
  | lowerOwned owner => cases owner <;> exact hs.of_parts
  | raiseOwned h _ => exact hs.of_parts
  | record id r hr => exact hs.record hm hr
  | move hid hnew => exact hs.move hid hnew
  | unrecord _ => exact hs.unrecord _ _
  | offer i o ho => exact hs.offer hm ho
  | removeOffer _ => exact hs.removeOffer _ _
  | departure h d _ => exact hs.of_parts
  | depart h linkUp cause _ => exact hs.of_parts
  | endDeparture h cause _ => exact hs.of_parts
  | join h _ _ _ => exact hs.of_parts
  | linkUp h _ _ => exact hs.of_parts
  | detach h _ => exact hs.of_parts
  | leavingLinkDown h _ => exact hs.of_parts
  | configure l c _ hload hl hg ht => exact hs.configure (hm.load_iff.mp hload) hl hg ht
  | tick _ hdue => exact hs.tick hdue
  | reset => exact State.NonePassed.reset.of_parts
  | release strap hr => exact hs.release strap (hm.load_iff.mp (hm.load_of_reset hr))

end State.NonePassed

/-! ### What a tick takes -/

/-- A fold whose steps all leave the state as it is. -/
theorem foldl_eq_self {α β : Type} {f : α → β → α} {a : α} {l : List β} (h : ∀ b ∈ l, f a b = a) : l.foldl f a = a := by
  induction l with
  | nil => rfl
  | cons b l ih =>
    rw [List.foldl_cons, h b (by simp)]
    exact ih fun c hc => h c (List.mem_cons_of_mem b hc)

/-- Without an expiry due, a tick takes none. -/
theorem State.takeExpiries_of_not_due {s : State}
    (hrecord : ∀ id r dl, id < 16 → s.record id = some r → r.deadline = some dl → 2 ^ 31 ≤ (s.tick - dl).toNat)
    (hoffer : ∀ i o, i < 8 → (s.offerSlot i).offer = some o → 2 ^ 31 ≤ (s.tick - o.deadline).toNat) :
    s.takeExpiries = { s with fresh := s.fresh + 1 } := by
  have offers : (List.range Config.offerCount).filter s.offerDue = [] := by
    refine List.filter_eq_nil_iff.mpr fun i hi => ?_
    rw [State.offerDue_iff]
    rintro ⟨o, ho, due⟩
    have := hoffer i o (List.mem_range.mp hi) ho
    omega
  have records : (List.range Config.recallCount).foldl State.graceExpiry ({ s with fresh := s.fresh + 1 } : State) =
      { s with fresh := s.fresh + 1 } :=
    foldl_eq_self fun id hid =>
      State.graceExpiry_of_not_due _ id fun r dl hr hdl => hrecord id r dl (List.mem_range.mp hid) hr hdl
  rw [State.takeExpiries, offers, records]
  rfl

theorem State.loadTimeout_of_not_due {s : State} (h : s.load = .loading → s.tick.toNat ≠ 100) : s.loadTimeout = s := by
  unfold State.loadTimeout State.loadUnderWay
  refine if_neg ?_
  rintro ⟨loading, due⟩
  exact h (by simpa using (Bool.and_eq_true_iff.mp loading).2) due

/-- The time-out changes neither the records nor the offers, nor the counters. -/
theorem State.loadTimeout_parts (s : State) : ∃ load config promSelect frames scrubQueue scrubPos,
    s.loadTimeout = { s with
      load := load, config := config, promSelect := promSelect, frames := frames, scrubQueue := scrubQueue
      scrubPos := scrubPos } := by
  unfold State.loadTimeout
  split
  · exact ⟨_, _, _, _, _, _, rfl⟩
  · exact ⟨_, _, _, _, _, _, rfl⟩

/-- The counter of free orders does not meet the time-out. -/
theorem State.loadTimeout_setFresh (s : State) (n : Nat) :
    ({ s with fresh := n } : State).loadTimeout = { s.loadTimeout with fresh := n } := by
  unfold State.loadTimeout State.loadUnderWay
  dsimp only
  split <;> rfl

/-- The slots of the offers a tick takes, in the order in which it takes them (log entry 11). -/
def State.slotsTaken (s : State) : List Nat :=
  sortRanked (Config.freeRank s.fresh) ((List.range Config.offerCount).filter s.offerDue)

theorem State.slotsTaken_nodup (s : State) : s.slotsTaken.Nodup :=
  (sortRanked_perm _ _).nodup_iff.mpr (List.nodup_range.filter _)

theorem State.mem_slotsTaken (s : State) (i : Nat) :
    i ∈ s.slotsTaken ↔ i < 8 ∧ ∃ o, (s.offerSlot i).offer = some o ∧ (s.tick - o.deadline).toNat < 2 ^ 31 := by
  rw [State.slotsTaken, mem_sortRanked, List.mem_filter, List.mem_range, State.offerDue_iff]

/-- A tick takes the time-out, then the grace expiries by ascending id, then the offer expiries. -/
theorem State.takeDue_eq (s : State) :
    s.takeDue = s.slotsTaken.foldl State.offerExpiry
      ((List.range 16).foldl State.graceExpiry ({ s with fresh := s.fresh + 1 } : State).loadTimeout) := by
  obtain ⟨load, config, promSelect, frames, scrubQueue, scrubPos, timeout⟩ := s.loadTimeout_parts
  rw [State.loadTimeout_setFresh, State.takeDue, State.takeExpiries, timeout]
  rfl

/-- The commands a tick takes. -/
theorem State.takeDue_eq_commands (s : State) :
    ∃ slots : List (Fin 8), slots.map Fin.val = s.slotsTaken ∧
      s.takeDue = ([Instr.loadTimeout] ++ (List.finRange 16).map Instr.graceExpiry ++ slots.map Instr.offerExpiry).foldl
        (fun v c => match exec c v with
          | .next w => w
          | _ => v) { s with fresh := s.fresh + 1 } := by
  obtain ⟨slots, hslots⟩ : ∃ slots : List (Fin 8), slots.map Fin.val = s.slotsTaken :=
    CanLift.prf s.slotsTaken fun i hi => ((s.mem_slotsTaken i).mp hi).1
  refine ⟨slots, hslots, ?_⟩
  rw [State.takeDue_eq, ← hslots, ← List.map_coe_finRange_eq_range, List.foldl_append, List.foldl_append]
  simp only [List.foldl_map, List.foldl_cons, List.foldl_nil]
  rfl

/-- Settles O49: a tick takes what is due and moves on; a deadline is reached at its tick and not before; and no act leaves
a moment of the Timebase behind the counter. -/
theorem ticksReachDeadlines : Obligations.TicksReachDeadlines := by
  refine ⟨fun s hr => ⟨fun hload hrecord hoffer => ?_, fun hl htick hrecord hoffer => ?_, ?_⟩,
    fun now ticks n hone hlast hn =>
      ⟨deadlineReached_iff_last now hlast hn, (ticksRemaining_deadlineAfter now ticks).trans ?_⟩,
    fun s t hm hs ht => ?_⟩
  · rw [exec_tick s hr, State.takeDue, State.loadTimeout_of_not_due hload, State.takeExpiries_of_not_due hrecord hoffer]
  · obtain ⟨load, config, promSelect, frames, scrubQueue, scrubPos, timeout⟩ := s.loadTimeout_parts
    refine ⟨s.loadTimeout, rfl, ?_⟩
    rw [exec_tick s hr, State.takeDue, State.takeExpiries_of_not_due, timeout]
    · rw [timeout]
      exact fun id r dl _ hid => (by cases (hrecord id).symm.trans hid)
    · rw [timeout]
      exact fun i o _ ho => (by cases (hoffer i).symm.trans ho)
  · obtain ⟨slots, hslots, taken⟩ := s.takeDue_eq_commands
    refine ⟨slots, s.takeDue, ?_, fun i => ?_, exec_tick s hr, taken⟩
    · exact List.Nodup.of_map _ (hslots ▸ s.slotsTaken_nodup)
    · have mem : i ∈ slots ↔ i.val ∈ s.slotsTaken := by
        rw [← hslots, List.mem_map_of_injective Fin.val_injective]
      rw [mem, State.mem_slotsTaken]
      exact and_iff_right i.isLt
  · exact Nat.mod_eq_of_lt (by omega)
  · exact step_keeps_law (lawful := False) (fun _ _ hs => hs.of_parts) (fun _ _ => False.elim)
      (fun _ _ hact hm hs => hs.act hm hact) hm hs ht

/-- Settles O53: each law at the reset state. -/
theorem resetObeysTheLaws : Obligations.ResetObeysTheLaws :=
  ⟨State.reset_tablesCanonical, State.reset_hirqFollows, .reset, .reset, .reset, .reset, .reset, .reset⟩

end Sys2Proof.Machine
end

section
/-! SUPPORT. The two arbiters (R31, R32, R113), the answers to fields outside their values (R34), and the service of the
Allocation Wait List (R23). -/

namespace Sys2Proof.Machine

set_option Elab.async false

variable {s : State} {h : HostId} {d : Desc}

/-! ### The rotation -/

theorem searchOrder_eq (a : HostId) : searchOrder a = (List.range 4).map (fun n => a + Fin.ofNat 4 n) := by
  simp [searchOrder, List.range_succ]
  rfl

/-- The search finds the host nearest to the pointer, in the rotation, that qualifies. -/
theorem find?_searchOrder_eq_some_iff {a : HostId} {p : HostId → Bool} :
    (searchOrder a).find? p = some h ↔ p h = true ∧ ∀ n : Fin 4, n < h - a → p (a + n) = false := by
  rw [searchOrder_eq, List.find?_map, Option.map_eq_some_iff]
  constructor
  · rintro ⟨i, hi, rfl⟩
    obtain ⟨hlt, hp, before⟩ := find?_range_eq_some_iff.mp hi
    refine ⟨hp, fun n hn => ?_⟩
    rw [add_sub_cancel_left, Fin.lt_def, Fin.val_ofNat, Nat.mod_eq_of_lt hlt] at hn
    simpa using before n.val hn
  · rintro ⟨hp, before⟩
    have here : a + Fin.ofNat 4 (h - a).val = h := by simp
    refine ⟨(h - a).val, find?_range_eq_some_iff.mpr ⟨(h - a).isLt, ?_, fun j hj => ?_⟩, here⟩
    · rw [Function.comp_apply, here]
      exact hp
    · have small : j < 4 := hj.trans (h - a).isLt
      exact before (Fin.ofNat 4 j) (by rwa [Fin.lt_def, Fin.val_ofNat, Nat.mod_eq_of_lt small])

theorem mem_searchOrder (a h : HostId) : h ∈ searchOrder a := by
  revert a h
  decide

theorem find?_searchOrder_eq_none_iff {a : HostId} {p : HostId → Bool} :
    (searchOrder a).find? p = none ↔ ∀ h, p h = false := by
  simp [List.find?_eq_none, mem_searchOrder]

/-! ### The command arbiter -/

theorem State.picked_first {raw : List Byte} (hp : s.picked = some (h, raw)) :
    ∀ n : Fin 4, n < h - s.cmdPointer → (s.port (s.cmdPointer + n)).eligible = false := by
  unfold State.picked at hp
  split at hp
  · next k hk =>
    split at hp
    · cases hp
      exact (find?_searchOrder_eq_some_iff.mp hk).2
    · cases hp
  · cases hp

theorem HostPort.queue_of_eligible {p : HostPort} (hp : p.eligible = true) : p.queue ≠ [] := by
  simp only [HostPort.eligible, Bool.and_eq_true] at hp
  simpa using hp.2

theorem State.eligible_of_not_picked (hp : s.picked = none) (h : HostId) : (s.port h).eligible = false := by
  unfold State.picked at hp
  split at hp
  · next k hk =>
    split at hp
    · cases hp
    · next hq => exact absurd hq (HostPort.queue_of_eligible (find?_searchOrder_eq_some_iff.mp hk).1)
  · next hn => exact find?_searchOrder_eq_none_iff.mp hn h

theorem taking_of_not_picked (hp : s.picked = none) (isRow : Byte → Bool) (act : HostId → Desc → State → State) :
    taking isRow act s = .next s := by
  simp [taking, hp]

/-- Settles O3: the host found by the rotation, the three updates of a taking, and the rows with none picked. -/
theorem arbiterRotates : Obligations.ArbiterRotates := by
  refine ⟨fun s h raw hp => ?_, fun s hp => ⟨State.eligible_of_not_picked hp, fun c hc => ?_⟩⟩
  · exact ⟨State.picked_member hp, State.picked_room hp, (State.picked_eligible hp).2, State.picked_first hp,
      s.beginTaking_eq h, fun isRow act hr => taking_of_picked hp hr⟩
  · fin_cases hc
    all_goals
      simp only [exec, execAlloc, execCancelAlloc, execSetLabel, execSetInherit, execQueryFrame, execFree, execGrant,
        execRevoke, execRelease, execOffer, execAccept, execDecline, execWithdraw, execSetWindow, execClearWindow,
        execMapSlot, execUnmapSlot, execQueryHost, execLeave, execBadCommand, taking_of_not_picked hp]

/-! ### Fields outside their values -/

theorem le_of_hostOfNat_eq_some {n : Nat} (hn : hostOfNat n = some h) : n ≤ 3 := by
  unfold hostOfNat at hn
  split at hn
  all_goals first
    | omega
    | cases hn

theorem le_of_levelOfNat_eq_some {n : Nat} {l : Level} (hn : levelOfNat n = some l) : n ≤ 2 := by
  unfold levelOfNat at hn
  split at hn
  all_goals first
    | omega
    | cases hn

theorem grantEffect_of_illegal (hbad : s.frameCount ≤ d.frame ∨ 3 < d.host ∨ d.level = 0 ∨ 2 < d.level) :
    grantEffect h d s = s.finish h d .badArgument := by
  unfold grantEffect
  split
  · next g level hg hl =>
    have host := le_of_hostOfNat_eq_some hg
    have bound := le_of_levelOfNat_eq_some hl
    refine if_pos ?_
    rcases hbad with hframe | hhost | hlevel | hlevel
    · exact Or.inl hframe
    · omega
    · rw [hlevel] at hl
      cases hl
      exact Or.inr rfl
    · omega
  · rfl

theorem revokeEffect_of_illegal (hbad : s.frameCount ≤ d.frame ∨ 3 < d.host ∨ 1 < d.mode) :
    revokeEffect h d s = s.finish h d .badArgument := by
  unfold revokeEffect
  split
  · next g hg =>
    have host := le_of_hostOfNat_eq_some hg
    refine if_pos ?_
    rcases hbad with hframe | hhost | hmode
    · exact Or.inl hframe
    · omega
    · exact Or.inr (by simpa [Desc.modeLegal] using hmode)
  · rfl

theorem offerEffect_of_illegal (hbad : s.frameCount ≤ d.frame ∨ 3 < d.host ∨ 2 < d.level) :
    offerEffect h d s = s.finish h d .badArgument := by
  unfold offerEffect
  split
  · next g level hg hl =>
    have host := le_of_hostOfNat_eq_some hg
    have bound := le_of_levelOfNat_eq_some hl
    refine if_pos ?_
    rcases hbad with hframe | hhost | hlevel
    · exact hframe
    · omega
    · omega
  · rfl

theorem freeEffect_of_illegal (hbad : s.frameCount ≤ d.frame ∨ 1 < d.mode) :
    freeEffect h d s = s.finish h d .badArgument := by
  have illegal : s.frameCount ≤ d.frame ∨ d.modeLegal = false := hbad.imp_right (by simp [Desc.modeLegal])
  rw [freeEffect_eq, State.freeCheck, if_pos illegal]
  rfl

/-- Settles O4: each command's field check stands first among its checks. -/
theorem fieldsOutsideValues : Obligations.FieldsOutsideValues := by
  intro s h d
  have refused : ∀ hm : (s.port h).portState = .member,
      (s.beginTaking h).finish h d .badArgument = s.replied h d .badArgument := fun hm => State.finish_taken hm d _
  refine ⟨fun ht hbad => ?_, fun ht hbad => ?_, fun ht hbad => ?_, fun ht hbad => ?_, fun ht hbad => ?_,
    fun ht hbad => ?_, fun ht hbad => ?_, fun ht hbad => ?_, fun ht hbad => ?_, fun ht hbad => ?_, fun ht hbad => ?_,
    fun ht hbad => ?_, fun ht hbad => ?_⟩
  case _ => exact (allocTaken s h d ht).trans (congrArg _ (if_pos hbad))
  case _ =>
    rw [(ownerSetsLabelAndInherit s h d).1 ht]
    simp [hbad]
  case _ =>
    rw [(ownerSetsLabelAndInherit s h d).2 ht]
    simp [hbad]
  case _ => exact ((queriesReport s h d).1 ht).trans (congrArg _ (if_pos hbad))
  case _ => rw [exec_free ht, freeEffect_of_illegal (s := s.beginTaking h) hbad, refused ht.member]
  case _ => rw [exec_grant ht, grantEffect_of_illegal (s := s.beginTaking h) hbad, refused ht.member]
  case _ => rw [exec_revoke ht, revokeEffect_of_illegal (s := s.beginTaking h) hbad, refused ht.member]
  case _ =>
    rw [exec_release ht, releaseEffect, if_pos (show (s.beginTaking h).frameCount ≤ d.frame from hbad),
      refused ht.member]
  case _ => rw [exec_offer ht, offerEffect_of_illegal (s := s.beginTaking h) hbad, refused ht.member]
  case _ => exact (setWindowTaken s h d ht).1 .badArgument (if_pos hbad)
  case _ => exact ((windowAndSlotEmptied s h d).1 ht).trans (congrArg _ (if_pos hbad))
  case _ => exact (mapSlotTaken s h d ht).trans (congrArg _ (if_pos hbad))
  case _ => exact ((windowAndSlotEmptied s h d).2 ht).trans (congrArg _ (if_pos hbad))

/-- Settles O5: the answer carries the tag and the code of the descriptor itself. -/
theorem unknownCodeAnswered : Obligations.UnknownCodeAnswered := by
  intro s h d code ht hcode
  have unknown : codeKnown code = false := by
    rcases hcode with rfl | hlarge
    · decide
    · simpa [codeKnown] using fun _ => hlarge
  rw [exec_badCommand ht unknown, badCommandEffect, State.finish_taken ht.member, State.replied, Desc.reply, ht.code_eq]

/-! ### The Allocation Wait List -/

theorem State.serveWaitList_of_nil (hw : s.waitList = []) : s.serveWaitList = s := by
  rw [State.serveWaitList, hw, serveEntries, ← hw]

/-- A head that does not fit stops the service. -/
theorem State.serveWaitList_of_short {e : WaitEntry} {rest : List WaitEntry} (hw : s.waitList = e :: rest)
    (hshort : s.freeList.length < e.count) : s.serveWaitList = s := by
  rw [State.serveWaitList, hw, serveEntries, if_neg (Nat.not_le.mpr hshort), ← hw]

theorem State.serveWaitList_of_fits {e : WaitEntry} {rest : List WaitEntry} (hw : s.waitList = e :: rest)
    (hfits : e.count ≤ s.freeList.length) :
    s.serveWaitList =
      ({ s with waitList := rest, waiting := s.waiting.set e.host 0 }.allocService e.host e.tag e.count e.label
        e.inheritFlag).serveWaitList := by
  have served : ({ s with waitList := rest, waiting := s.waiting.set e.host 0 }.allocService e.host e.tag e.count
      e.label e.inheritFlag).waitList = rest := by
    rw [State.allocService_eq]
    rfl
  rw [State.serveWaitList, hw, serveEntries, if_pos hfits, State.serveWaitList, served]

/-- Settles O8. -/
theorem waitListServedFromHead : Obligations.WaitListServedFromHead := fun _ =>
  ⟨State.serveWaitList_of_nil, fun _ _ hw => ⟨State.serveWaitList_of_short hw, State.serveWaitList_of_fits hw⟩⟩

/-! ### The pool arbiter -/

theorem State.presents_eq_false_iff : s.presents h = false ↔ ∀ e ∈ (s.unit h).ort, e.inPool = true := by
  simp [State.presents]

theorem State.scrubberActive_iff : s.scrubberActive = true ↔ s.load ≠ .loading ∧ s.scrubQueue ≠ [] := by
  simp [State.scrubberActive]

theorem State.nextPort_eq_none_iff : s.nextPort = none ↔ ∀ h, ∀ e ∈ (s.unit h).ort, e.inPool = true := by
  rw [State.nextPort, find?_searchOrder_eq_none_iff]
  exact forall_congr' fun h => State.presents_eq_false_iff

theorem State.nextPort_eq_some (hp : s.presents h = true)
    (before : ∀ n : Fin 4, n < h - s.portPointer → ∀ x ∈ (s.unit (s.portPointer + n)).ort, x.inPool = true) :
    s.nextPort = some h :=
  find?_searchOrder_eq_some_iff.mpr ⟨hp, fun n hn => State.presents_eq_false_iff.mpr (before n hn)⟩

/-- The first entry that is not IN_POOL becomes so, and no other entry changes. -/
theorem grantOldest_append {older newer : List OrtEntry} {e : OrtEntry} (holder : ∀ x ∈ older, x.inPool = true)
    (he : e.inPool = false) : grantOldest (older ++ e :: newer) = older ++ { e with inPool := true } :: newer := by
  induction older with
  | nil => simp [grantOldest, he]
  | cons x older ih =>
    rw [List.cons_append, grantOldest, if_pos (holder x (by simp)), ih fun y hy => holder y (List.mem_cons_of_mem x hy)]
    rfl

/-- The three cases of a grant, with the Pool Controller idle (R113). -/
theorem exec_poolGrant (hj : s.job = .idle) :
    exec .poolGrant s =
      if s.scrubberActive ∧ s.turn = 16 then .next s.grantScrubber
      else
        match s.nextPort with
        | some h => .next (s.grantPort h)
        | none => if s.scrubberActive then .next s.grantScrubber else .next s :=
  if_pos hj

/-- Settles O35: the scrubber's turn, the next port in the rotation, or nothing to grant. -/
theorem poolGranted : Obligations.PoolGranted := by
  intro s
  refine ⟨fun hj => if_neg hj, fun hj => ⟨fun idle waiting => ?_, fun hload hqueue hturn => ?_,
    fun h older e newer hturn hort holder he before => ?_⟩⟩
  · have inactive : ¬ s.scrubberActive = true := by
      rw [State.scrubberActive_iff]
      tauto
    rw [exec_poolGrant hj, State.nextPort_eq_none_iff.mpr waiting, if_neg fun x => inactive x.1]
    exact if_neg inactive
  · have active : s.scrubberActive = true := State.scrubberActive_iff.mpr ⟨hload, hqueue⟩
    rw [exec_poolGrant hj]
    split
    · rfl
    · next hnot =>
      have waiting := hturn.resolve_left fun x => hnot ⟨active, x⟩
      rw [State.nextPort_eq_none_iff.mpr waiting]
      rfl
  · have presents : s.presents h = true := by
      simp [State.presents, hort, he]
    have noTurn : ¬ (s.scrubberActive = true ∧ s.turn = 16) := by
      rw [State.scrubberActive_iff]
      tauto
    rw [exec_poolGrant hj, if_neg noTurn, State.nextPort_eq_some presents before]
    simp only [State.grantPort, State.updUnit_eq, hort, grantOldest_append holder he, State.scrubberActive_iff]

end Sys2Proof.Machine
end

section
/-! SUPPORT. Control accesses of a port (R28, R29, R132, R133, R137, R138, R145, R167). -/

namespace Sys2Proof.Machine

set_option Elab.async false

variable {s : State} {h : HostId} {w : ControlWrite}

/-! ### The staging area -/

theorem stagingAfter_length (old : List Byte) : (stagingAfter w old).length = old.length := by
  simp [stagingAfter]

theorem stagingAfter_byteAt {old : List Byte} {i : Nat} (hi : i < old.length) :
    byteAt (stagingAfter w old) i = (w.byteAt (0x200 + i)).getD (byteAt old i) := by
  simp [byteAt, stagingAfter, hi, regStaging]

theorem stagingAfter_of_none (hw : ∀ a, w.byteAt a = none) (old : List Byte) : stagingAfter w old = old := by
  refine List.ext_getElem (stagingAfter_length old) fun i _ _ => ?_
  simp [stagingAfter, hw]

/-- Settles O26. -/
theorem stagingWritten : Obligations.StagingWritten := by
  intro s h w hd
  refine ⟨stagingAfter w (s.port h).staging, if_pos hd, stagingAfter_length _, fun i hi => ?_⟩
  rw [stagingAfter_length] at hi
  exact stagingAfter_byteAt hi

/-! ### Submissions -/

/-- Settles O27. -/
theorem submissionDecided : Obligations.SubmissionDecided := by
  intro s h w hd hw
  refine (if_pos ⟨hd, hw⟩).trans ?_
  rw [State.updPort_eq, HostPort.submitted]
  by_cases hm : (s.port h).portState = .member
  · rw [if_pos hm, if_neg (not_not.mpr hm)]
  · rw [if_neg hm, if_pos hm]

/-! ### Join requests -/

theorem exec_join (hd : s.delivers h = true) (hw : w.touches regJoin 4 = true) :
    exec (.join h w) s = .next (s.joinRequest h) := if_pos ⟨hd, hw⟩

/-- The refusals of R145 in their order, `none` where there is none. -/
def State.joinRefusal (s : State) (h : HostId) : Option JoinStatus :=
  if (s.port h).portState ≠ .attached then some JoinStatus.notAttached
  else if s.load = .loading then some .notReady
  else if ∃ c, s.config = some c ∧ c.enabled.get h = false then some .hostDisabled
  else none

theorem State.joinOutcome_of_attached (ha : (s.port h).portState = .attached) :
    s.joinOutcome h =
      if s.load = .loading then .notReady
      else
        match s.config with
        | some c => if c.enabled.get h then .joined else .hostDisabled
        | none => .notReady := by
  unfold State.joinOutcome
  rw [ha]
  cases s.load <;> cases s.config <;> rfl

theorem State.joinOutcome_of_refusal {st : JoinStatus} (hst : s.joinRefusal h = some st) :
    s.joinOutcome h = st ∧ st ≠ .joined := by
  unfold State.joinRefusal at hst
  split at hst
  · next hp =>
    cases hst
    refine ⟨?_, by simp⟩
    unfold State.joinOutcome
    split
    · next ha => exact absurd ha hp
    · rfl
  · next ha =>
    rw [State.joinOutcome_of_attached (not_not.mp ha)]
    split at hst
    · next hl =>
      cases hst
      exact ⟨if_pos hl, by simp⟩
    · next hl =>
      rw [if_neg hl]
      split at hst
      · next hc =>
        cases hst
        obtain ⟨c, hc, disabled⟩ := hc
        rw [hc]
        exact ⟨if_neg (by simp [disabled]), by simp⟩
      · cases hst

/-- Settles O28: the outcome recorded alone, or the membership with a notice to every other host. -/
theorem joinRequestDecided : Obligations.JoinRequestDecided := by
  intro s h w hd hw
  rw [exec_join hd hw]
  refine ⟨fun st hst => ?_, fun c ha hl hc enabled => ?_⟩
  · obtain ⟨outcome, refused⟩ := State.joinOutcome_of_refusal (s := s) (h := h) hst
    rw [State.joinRequest, outcome, if_neg refused]
    rfl
  · have outcome : s.joinOutcome h = .joined := by
      rw [State.joinOutcome_of_attached ha, if_neg hl, hc]
      exact if_pos enabled
    have others : (hosts.filter (fun k => !decide (k = h))).Nodup := hosts_nodup.filter _
    refine ⟨_, rfl, fun k => ?_, ?_⟩
    · rw [State.joinRequest, if_pos outcome, State.notifyAll_port _ others, State.updPort_eq, State.setPort_port]
      by_cases hk : k = h <;> simp [hk]
    · rw [State.joinRequest, if_pos outcome, State.notifyAll_frame]
      rfl

/-! ### Pops -/

theorem popData_zero {len : Nat} (hlen : 4 ≤ len) : popData 0 len = List.replicate len 0 := by
  obtain ⟨n, rfl⟩ : ∃ n, len = n + 1 := ⟨len - 1, by omega⟩
  rfl

/-- Settles O29. -/
theorem popsRemoveTheHead : Obligations.PopsRemoveTheHead := by
  intro s h len hd hmod hmin hmax
  have link := State.linkUp_of_delivers hd
  have events : accessLegal regEventPop len = true :=
    decide_eq_true ⟨hmin, hmax, hmod, by unfold regEventPop; omega, by unfold regEventPop; omega⟩
  have faults : accessLegal regFaultPop len = true :=
    decide_eq_true ⟨hmin, hmax, hmod, by unfold regFaultPop; omega, by unfold regFaultPop; omega⟩
  refine ⟨((if_pos hd).trans (if_pos events)).trans ?_, ((if_pos hd).trans (if_pos faults)).trans ?_⟩
  · rw [State.updPort_eq, HostPort.popEvent]
    rcases (s.port h).events with _ | ⟨e, rest⟩
    · dsimp only
      rw [HostPort.send_of_linkUp link, popData_zero hmin]
    · exact congrArg _ (congrArg (s.setPort h) (HostPort.send_of_linkUp (p := { s.port h with events := rest }.refreshHirq)
        link _))
  · rw [State.updPort_eq, HostPort.popFault]
    rcases (s.port h).faults with _ | ⟨r, rest⟩
    · dsimp only
      rw [HostPort.send_of_linkUp link, popData_zero hmin]
    · exact congrArg _ (congrArg (s.setPort h) (HostPort.send_of_linkUp (p := { s.port h with faults := rest }.refreshHirq)
        link _))

/-! ### NOTICE_LOST_CLEAR and INT_ENABLE -/

/-- Settles O30. -/
theorem clearAndEnableWritten : Obligations.ClearAndEnableWritten := by
  intro s h w v hd
  refine ⟨fun hw => (if_pos hd).trans (congrArg _ ?_), fun hw => (if_pos hd).trans (congrArg _ ?_)⟩
  · rw [State.updPort_eq, show w.byteAt regNoticeLostClear = some v from hw, HostPort.clearNoticeLost]
    split
    · simp [HostPort.refreshHirq, HostPort.hirqCondition]
    · exact State.setPort_same s h
  · rw [State.updPort_eq, show w.byteAt regIntEnable = some v from hw]
    rfl

/-! ### Accesses without an effect -/

theorem ControlWrite.touches_of_none (hw : ∀ a, w.byteAt a = none) (offset size : Nat) :
    w.touches offset size = false := by
  simp [ControlWrite.touches, hw]

/-- Settles O31: a write without a byte changes no register, and an undelivered access does not reach its port. -/
theorem accessesWithoutEffect : Obligations.AccessesWithoutEffect := by
  intro s h w len r
  refine ⟨rfl, fun hw => ⟨?_, ?_, ?_, ?_, ?_⟩, fun hd c hc => ?_⟩
  · show execStaging h w s = .next s
    simp only [execStaging, State.updPort_eq, stagingAfter_of_none hw]
    split
    · exact congrArg _ (State.setPort_same s h)
    · rfl
  · exact if_neg (by simp [ControlWrite.touches_of_none hw])
  · exact if_neg (by simp [ControlWrite.touches_of_none hw])
  · show execNoticeLostClear h w s = .next s
    simp [execNoticeLostClear, hw, HostPort.clearNoticeLost]
  · show execIntEnable h w s = .next s
    simp [execIntEnable, hw, HostPort.setEnables]
  · fin_cases hc
    all_goals
      simp [exec, execStaging, execSubmit, execJoin, execEventPop, execFaultPop, execNoticeLostClear, execIntEnable,
        execDataRequestArrival, hd]

end Sys2Proof.Machine
end

section
/-! SUPPORT. The ends of the accesses that the Pool Controller performs (R17, R18, R115 to R119). -/

namespace Sys2Proof.Machine

set_option Elab.async false

variable {s : State} {h : HostId} {e : OrtEntry}

/-! ### Uncorrectable errors -/

theorem State.anyUncorrectable_iff {l : List (Nat × BlockError)} :
    s.anyUncorrectable l = true ↔ ∃ be ∈ l, (s.blockError be.1).worse be.2 = .uncorrectable := by
  simp [State.anyUncorrectable]

theorem BlockError.worse_uncorrectable (x : BlockError) : x.worse .uncorrectable = .uncorrectable := by
  cases x <;> rfl

/-- Where no block is uncorrectable with the error that has arisen in it, no error is noted. -/
theorem State.noteErrors_of_not_any {l : List (Nat × BlockError)} (hl : ¬ s.anyUncorrectable l = true) :
    s.noteErrors l = s := by
  refine s.noteErrors_correctable l fun be hbe arisen => hl (State.anyUncorrectable_iff.mpr ⟨be, hbe, ?_⟩)
  rw [arisen, BlockError.worse_uncorrectable]

/-- The state after the errors of the blocks that were read are noted and the damage is reported (R118). -/
def State.damaged (s : State) (h : HostId) (e : OrtEntry) (l : List (Nat × BlockError)) : State :=
  { (s.noteErrors l).damageReport h e with job := .idle }

theorem State.damaged_eq (l : List (Nat × BlockError)) :
    s.damaged h e l =
      { (s.setFrame e.frame { s.frame e.frame with damaged := true }).setPort h
          ((s.port h).reportFault ⟨.poolData, e.access.isWrite, e.address, e.length, none, some e.frame, 0⟩) with
        job := .idle, blocks := (s.damaged h e l).blocks } := by
  obtain ⟨blocks, noted⟩ : ∃ blocks, s.noteErrors l = { s with blocks := blocks } := ⟨_, s.noteErrors_eq l⟩
  rw [State.damaged, noted]
  rfl

theorem State.damaged_poolByte (l : List (Nat × BlockError)) (a : Nat) :
    (s.damaged h e l).poolByte a = s.poolByte a := by
  have noted := s.noteErrors_poolByte l a
  rw [State.noteErrors_eq] at noted
  rw [State.damaged_eq, ← noted]
  rfl

theorem State.damaged_blockError (l : List (Nat × BlockError)) (b : Nat) :
    (s.damaged h e l).blockError b =
      if (b, BlockError.uncorrectable) ∈ l ∧ Table.get BlockStatus.unknown s.blocks b ≠ .unknown then .uncorrectable
      else s.blockError b := by
  have noted := s.noteErrors_blockError l b
  rw [State.noteErrors_eq] at noted
  rw [State.damaged_eq, ← noted]
  rfl

/-! ### The end of a read -/

theorem exec_readPerformed (hj : s.job = .port h) (he : s.inPoolEntry h = some e) (hread : e.access = .read)
    (e0 e1 : BlockError) : exec (.readPerformed e0 e1) s = .next (s.readEnd h e e0 e1) := by
  simp [exec, execReadPerformed, hj, he, hread, Access.isWrite]

theorem State.readEnd_clean {e0 e1 : BlockError} (hclean : ¬ s.anyUncorrectable (e.poolBlocks.zip [e0, e1]) = true) :
    s.readEnd h e e0 e1 =
      ({ s with job := .idle } : State).retire h e (.readCompletion e.tag .ok (s.entryBytes e)) := by
  rw [State.readEnd, if_neg hclean, State.noteErrors_of_not_any hclean]

theorem State.readEnd_damaged {e0 e1 : BlockError} (hbad : s.anyUncorrectable (e.poolBlocks.zip [e0, e1]) = true) :
    s.readEnd h e e0 e1 =
      (s.damaged h e (e.poolBlocks.zip [e0, e1])).retire h e
        (.readCompletion e.tag .dataError (List.replicate e.length 0xFF)) := if_pos hbad

/-- Settles O37. -/
theorem readEnds : Obligations.ReadEnds := by
  intro s h e e0 e1 hj he hread
  refine ⟨_, exec_readPerformed hj he hread e0 e1, fun hclean => ?_, fun hbad => ?_⟩
  · refine State.readEnd_clean fun hbad => ?_
    obtain ⟨be, hbe, bad⟩ := State.anyUncorrectable_iff.mp hbad
    exact hclean be hbe bad
  · have damaged := State.damaged_eq (s := s) (h := h) (e := e) (e.poolBlocks.zip [e0, e1])
    rw [hread] at damaged
    exact ⟨_, State.readEnd_damaged (State.anyUncorrectable_iff.mpr hbad), State.damaged_poolByte _,
      State.damaged_blockError _, damaged⟩

/-! ### The bytes of a write -/

theorem OrtEntry.enabledByte_of_enabledIn_eq_zero {b : Nat} (hb : e.enabledIn b = 0) {a : Nat} (ha : a / 64 = b) :
    e.enabledByte a = none := by
  have none_enabled := List.filter_eq_nil_iff.mp (List.length_eq_zero_iff.mp hb) (a % 64)
    (List.mem_range.mpr (Nat.mod_lt a (by decide)))
  have address : b * Config.blockBytes + a % 64 = a := by
    show b * 64 + a % 64 = a
    omega
  simpa [address] using none_enabled

/-- The write of an entry into one block puts its enabled bytes there and leaves every other byte. -/
theorem State.writeEntryBlock_poolByte (b a : Nat) :
    (s.writeEntryBlock e b).poolByte a =
      if a / 64 = b then (e.enabledByte a).getD (s.poolByte a) else s.poolByte a := by
  unfold State.writeEntryBlock
  by_cases hb : e.enabledIn b = 0
  · rw [if_pos hb]
    split
    · next ha => simp [OrtEntry.enabledByte_of_enabledIn_eq_zero hb ha]
    · rfl
  · rw [if_neg hb, State.writeBlock_poolByte]
    split
    · next ha =>
      have address : b * Config.blockBytes + (a - b * 64) = a := by
        show b * 64 + (a - b * 64) = a
        omega
      rw [address]
    · rfl

theorem State.writeEntryBlock_blockError (b c : Nat) :
    (s.writeEntryBlock e b).blockError c = if c = b ∧ 0 < e.enabledIn b then .none else s.blockError c := by
  unfold State.writeEntryBlock
  by_cases hb : e.enabledIn b = 0
  · rw [if_pos hb, if_neg (by omega)]
  · rw [if_neg hb, State.writeBlock_blockError]
    simp [Nat.pos_of_ne_zero hb]

/-- The state after the writes of an entry into pool blocks. -/
def State.writeEntry (s : State) (e : OrtEntry) (l : List Nat) : State := l.foldl (fun s b => s.writeEntryBlock e b) s

theorem State.writeEntry_cons (b : Nat) (l : List Nat) :
    s.writeEntry e (b :: l) = (s.writeEntryBlock e b).writeEntry e l := rfl

theorem State.writeEntry_parts (l : List Nat) :
    ∃ mem blocks, s.writeEntry e l = { s with mem := mem, blocks := blocks } := by
  induction l generalizing s with
  | nil => exact ⟨_, _, rfl⟩
  | cons b l ih =>
    obtain ⟨mem, blocks, rest⟩ := ih (s := s.writeEntryBlock e b)
    rw [State.writeEntry_cons, rest, State.writeEntryBlock]
    split
    · exact ⟨_, _, rfl⟩
    · exact ⟨_, _, rfl⟩

theorem State.writeEntry_poolByte (l : List Nat) (a : Nat) :
    (s.writeEntry e l).poolByte a =
      if a / 64 ∈ l then (e.enabledByte a).getD (s.poolByte a) else s.poolByte a := by
  induction l generalizing s with
  | nil => rfl
  | cons b l ih =>
    rw [State.writeEntry_cons, ih, State.writeEntryBlock_poolByte]
    by_cases hb : a / 64 = b
    · cases e.enabledByte a <;> simp [hb]
    · simp [hb]

theorem State.writeEntry_blockError (l : List Nat) (c : Nat) :
    (s.writeEntry e l).blockError c = if c ∈ l ∧ 0 < e.enabledIn c then .none else s.blockError c := by
  induction l generalizing s with
  | nil => simp [State.writeEntry]
  | cons b l ih =>
    rw [State.writeEntry_cons, ih, State.writeEntryBlock_blockError]
    by_cases hb : c = b
    · subst hb
      by_cases enabled : 0 < e.enabledIn c <;> simp [enabled]
    · simp [hb]

theorem OrtEntry.mem_poolBlocks {b : Nat} :
    b ∈ e.poolBlocks ↔ b = e.frame * 1024 + e.offset / 64 ∨ b = e.frame * 1024 + (e.offset + e.length - 1) / 64 := by
  simp only [OrtEntry.poolBlocks, Config.blocksPerFrame, Config.blockBytes]
  split
  · next same => simp [← same]
  · simp

/-- An access within one aligned 128-byte block enables bytes of its own pool blocks only. -/
theorem OrtEntry.mem_poolBlocks_of_enabledByte {bytes : List (Byte × Bool)} (haccess : e.access = .write bytes)
    (hlength : bytes.length = e.length) (hfits : e.offset % 128 + e.length ≤ 128) {a : Nat}
    (ha : e.enabledByte a ≠ none) : a / 64 ∈ e.poolBlocks := by
  have within : e.poolAddress ≤ a ∧ a - e.poolAddress < e.length := by
    simp only [OrtEntry.enabledByte, haccess] at ha
    split at ha
    · next hle =>
      refine ⟨hle, ?_⟩
      by_contra hout
      rw [List.getElem?_eq_none (by omega)] at ha
      exact ha rfl
    · exact absurd rfl ha
  have address : e.poolAddress = e.frame * 65536 + e.offset := rfl
  obtain ⟨first, last⟩ := within
  rw [OrtEntry.mem_poolBlocks]
  omega

theorem State.writeEntry_poolByte_poolBlocks {bytes : List (Byte × Bool)} (haccess : e.access = .write bytes)
    (hlength : bytes.length = e.length) (hfits : e.offset % 128 + e.length ≤ 128) (a : Nat) :
    (s.writeEntry e e.poolBlocks).poolByte a = (e.enabledByte a).getD (s.poolByte a) := by
  rw [State.writeEntry_poolByte]
  split
  · rfl
  · next hout =>
    have disabled : e.enabledByte a = none := by
      by_contra enabled
      exact hout (OrtEntry.mem_poolBlocks_of_enabledByte haccess hlength hfits enabled)
    rw [disabled]
    rfl

/-! ### The end of a write -/

theorem exec_writePerformed {bytes : List (Byte × Bool)} (hj : s.job = .port h) (he : s.inPoolEntry h = some e)
    (hwrite : e.access = .write bytes) (e0 e1 : BlockError) :
    exec (.writePerformed e0 e1) s = .next (s.writeEnd h e e0 e1) := by
  simp [exec, execWritePerformed, hj, he, hwrite, Access.isWrite]

/-- The pool blocks that are read for a merge, with the errors that have arisen in them (R117). -/
def OrtEntry.merged (e : OrtEntry) (e0 e1 : BlockError) : List (Nat × BlockError) :=
  (e.poolBlocks.zip [e0, e1]).filter (fun be => e.partialIn be.1)

/-- The state at the end of a write, before the entry retires: its bytes written, or dropped with a damage report. -/
def State.writeDone (s : State) (h : HostId) (e : OrtEntry) (e0 e1 : BlockError) : State :=
  if s.anyUncorrectable (e.merged e0 e1) then s.damaged h e (e.merged e0 e1)
  else { s.writeEntry e e.poolBlocks with job := .idle }

theorem State.writeEnd_eq (e0 e1 : BlockError) :
    s.writeEnd h e e0 e1 = (s.writeDone h e e0 e1).retire h e (.creditReturn e.tag) := by
  unfold State.writeDone
  exact (apply_ite (fun t : State => t.retire h e (.creditReturn e.tag)) _ _ _).symm

theorem State.merged_uncorrectable_iff {e0 e1 : BlockError} :
    s.anyUncorrectable (e.merged e0 e1) = true ↔
      ∃ be ∈ e.poolBlocks.zip [e0, e1], e.partialIn be.1 = true ∧ (s.blockError be.1).worse be.2 = .uncorrectable := by
  simp only [State.anyUncorrectable_iff, OrtEntry.merged, List.mem_filter, and_assoc]

/-- Settles O38. -/
theorem writeEnds : Obligations.WriteEnds := by
  intro s h e bytes e0 e1 hj he hwrite hlength _ hfits
  refine ⟨s.writeDone h e e0 e1, ?_, fun hclean => ?_, fun hbad => ?_⟩
  · rw [exec_writePerformed hj he hwrite, State.writeEnd_eq]
  · have clean : ¬ s.anyUncorrectable (e.merged e0 e1) = true := by
      rw [State.merged_uncorrectable_iff]
      rintro ⟨be, hbe, merged, bad⟩
      exact hclean be hbe merged bad
    rw [State.writeDone, if_neg clean]
    refine ⟨fun a => ?_, State.writeEntry_blockError e.poolBlocks, ?_⟩
    · refine (State.writeEntry_poolByte_poolBlocks hwrite hlength hfits a).trans ?_
      have address : e.poolAddress = e.frame * 65536 + e.offset := rfl
      simp only [OrtEntry.enabledByte, hwrite, address]
      split_ifs with hle
      · rcases bytes[a - (e.frame * 65536 + e.offset)]? with _ | ⟨v, _ | _⟩ <;> rfl
      · rcases bytes[a - (e.frame * 65536 + e.offset)]? with _ | ⟨v, _ | _⟩ <;> rfl
    · obtain ⟨mem, blocks, written⟩ := State.writeEntry_parts (s := s) (e := e) e.poolBlocks
      rw [written]
  · rw [State.writeDone, if_pos (State.merged_uncorrectable_iff.mpr hbad)]
    refine ⟨State.damaged_poolByte _, fun b => ?_, ?_⟩
    · rw [State.damaged_blockError]
      simp only [OrtEntry.merged, List.mem_filter, and_assoc]
    · have damaged := State.damaged_eq (s := s) (h := h) (e := e) (e.merged e0 e1)
      rw [hwrite] at damaged
      exact damaged

/-! ### Retirement -/

/-- The state after an entry has left the ORT and its message is sent, before its report (R119). -/
def State.retired (s : State) (h : HostId) (e : OrtEntry) (m : LinkMessage) : State :=
  (s.setUnit h { s.unit h with ort := (s.unit h).ort.filter (fun x => x.tag ≠ e.tag) }).setPort h
    (if (s.port h).linkUp then { s.port h with sent := (s.port h).sent ++ [m] } else s.port h)

/-- The retirement is reported when the frame's closing flag is set and no other entry for the frame remains (R48). -/
theorem State.retire_eq (m : LinkMessage) :
    s.retire h e m =
      if (s.frame e.frame).closing.get h = true ∧ ∀ x ∈ (s.unit h).ort, x.frame = e.frame → x.tag = e.tag then
        (s.retired h e m).drainReport h e.frame
      else s.retired h e m := by
  have same : (s.updUnit h (fun u => { u with ort := u.ort.filter (fun x => !decide (x.tag = e.tag)) })).send h m =
      s.retired h e m := by
    simp only [State.retired, ne_eq, decide_not]
    rfl
  have unit : (s.retired h e m).unit h =
      { s.unit h with ort := (s.unit h).ort.filter (fun x => x.tag ≠ e.tag) } := by
    simp [State.retired]
  have remains : ((s.retired h e m).unit h).holdsFrame e.frame = false ↔
      ∀ x ∈ (s.unit h).ort, x.frame = e.frame → x.tag = e.tag := by
    rw [unit, TranslationUnit.holdsFrame, List.any_eq_false]
    simp only [List.mem_filter, decide_eq_true_eq, and_imp]
    exact forall₂_congr fun x _ => not_imp_not
  unfold State.retire
  simp only [same, remains]
  rfl

/-- Settles O39. -/
theorem retirementAnswersAndReports : Obligations.RetirementAnswersAndReports := by
  intro s h e m t
  refine ⟨fun hquiet => (State.retire_eq m).trans (if_neg ?_), fun hclosing hlast =>
    (State.retire_eq m).trans (if_pos ⟨hclosing, hlast⟩)⟩
  rintro ⟨hclosing, hlast⟩
  rcases hquiet with hopen | ⟨x, hx, htag, hframe⟩
  · simp [hopen] at hclosing
  · exact htag (hlast x hx hframe)

/-! ### The scrubber -/

/-- The state after the pool block under scrub is written and the Pool Controller is idle (R115). -/
def State.scrubWritten (s : State) (f : Nat) : State :=
  { s.writeBlock (f * Config.blocksPerFrame + s.scrubPos) (fun _ => 0) with job := .idle }

theorem State.scrubWriteEnd_eq {f : Nat} {rest : List Nat} (hq : s.scrubQueue = f :: rest) :
    s.scrubWriteEnd =
      if s.scrubPos + 1 < Config.blocksPerFrame then { s.scrubWritten f with scrubPos := s.scrubPos + 1 }
      else (s.scrubWritten f).endScrub f rest := by
  obtain ⟨mem, blocks, written⟩ := s.writeBlock_parts (f * Config.blocksPerFrame + s.scrubPos) (fun _ => 0)
  rw [State.scrubWritten, written]
  unfold State.scrubWriteEnd
  rw [hq]
  simp only [written]
  rw [← hq]

/-- Settles O36. -/
theorem scrubWriteEnds : Obligations.ScrubWriteEnds := by
  intro s f rest hj hq
  have exec_eq : exec .scrubWritePerformed s = .next s.scrubWriteEnd := if_pos hj
  obtain ⟨mem, blocks, written⟩ := s.writeBlock_parts (f * Config.blocksPerFrame + s.scrubPos) (fun _ => 0)
  have byte := s.writeBlock_poolByte (f * Config.blocksPerFrame + s.scrubPos) (fun _ => 0)
  have error := s.writeBlock_blockError (f * Config.blocksPerFrame + s.scrubPos) (fun _ => 0)
  rw [written] at byte error
  rw [exec_eq, State.scrubWriteEnd_eq hq, State.scrubWritten, written]
  refine ⟨{ s with job := .idle, mem := mem, blocks := blocks }, byte, error, rfl, fun hpos => ?_, fun hpos => ?_⟩
  · rw [if_pos (show s.scrubPos + 1 < 1024 by omega)]
  · rw [if_neg (show ¬ s.scrubPos + 1 < 1024 by omega), State.endScrub]
    rfl

end Sys2Proof.Machine
end

section
/-! SUPPORT. A record's creation, its targets' way out of NOTICE (R44 to R47, R51, R52, R58, R66), and RELEASE (R59 to R62). -/

namespace Sys2Proof.Machine

set_option Elab.async false

variable {s : State} {id : Nat} {r : RecallRecord}

/-! ### The drain checks of a change -/

/-- Where a FREE's owner that was in CLOSING already does not newly wait on nobody, a change asks for the checks of the
targets newly in CLOSING, but not for a FREE's owner's that waits on another. -/
theorem RecallRecord.mem_checksAsked_of_ready {old new : RecallRecord} (hpurpose : new.purpose = old.purpose)
    (hrequester : new.requester = old.requester)
    (hready : old.targets.get old.requester = some .closing → new.othersDrained old.requester = true →
      old.othersDrained old.requester = true) (k : HostId) (f : Nat) :
    (k, f) ∈ RecallRecord.checksAsked old new ↔
      f = new.frame ∧ new.targets.get k = some .closing ∧ old.targets.get k ≠ some .closing ∧
        ¬ (old.purpose = .free ∧ old.requester = k ∧ new.othersDrained k = false) := by
  rw [RecallRecord.mem_checksAsked]
  refine and_congr_right fun _ => ⟨?_, ?_⟩
  · rintro (⟨closing, fresh, other⟩ | ⟨rfl, ready, unready⟩)
    · refine ⟨closing, fresh, fun waits => ?_⟩
      simp [RecallRecord.isOwnerTarget, hpurpose, hrequester, waits.1, waits.2.1] at other
    · obtain ⟨free, closing, others⟩ := new.ownerReady_iff.mp ready
      refine ⟨closing, fun before => ?_, fun waits => by simp [others] at waits⟩
      rw [hrequester] at others before
      have : old.ownerReady = true := old.ownerReady_iff.mpr ⟨hpurpose ▸ free, before, hready before others⟩
      simp [this] at unready
  · rintro ⟨closing, fresh, alone⟩
    by_cases owner : old.purpose = .free ∧ old.requester = k
    · obtain ⟨free, rfl⟩ := owner
      have others : new.othersDrained old.requester = true := by simpa [free] using alone
      refine Or.inr ⟨hrequester.symm, new.ownerReady_iff.mpr ⟨hpurpose.trans free, ?_, ?_⟩, ?_⟩
      · rwa [hrequester]
      · rwa [hrequester]
      · rw [← Bool.not_eq_true, RecallRecord.ownerReady_iff]
        exact fun ready => fresh ready.2.1
    · exact Or.inl ⟨closing, fresh, by simpa [RecallRecord.isOwnerTarget, hpurpose, hrequester] using owner⟩

/-! ### Creation -/

theorem RecallRecord.isOwnerTarget_iff {k : HostId} :
    r.isOwnerTarget k = true ↔ r.purpose = .free ∧ r.requester = k := decide_eq_true_iff

theorem State.openRecord_eq (s : State) (id : Nat) (r : RecallRecord) :
    ∃ ports, s.openRecord id r = { s.recorded id r with ports := ports } := by
  unfold State.openRecord
  split
  · exact ⟨_, State.notifyAll_frame _ _ _⟩
  · exact ⟨_, rfl⟩

theorem State.recorded_port (s : State) (id : Nat) (r : RecallRecord) (k : HostId) :
    (s.recorded id r).port k = s.port k := by
  obtain ⟨frames, recalls, checks, parts⟩ := s.recorded_parts id r
  rw [parts]
  rfl

theorem State.recorded_tick (s : State) (id : Nat) (r : RecallRecord) : (s.recorded id r).tick = s.tick := by
  obtain ⟨frames, recalls, checks, parts⟩ := s.recorded_parts id r
  rw [parts]

/-- The notices of a new record: to every target in NOTICE but a FREE's owner, with the ticks remaining (R46). -/
theorem State.openRecord_port (s : State) (id : Nat) (r : RecallRecord) (k : HostId) :
    (s.openRecord id r).port k =
      match r.deadline with
      | some dl =>
        if r.targets.get k = some .notice ∧ ¬ (r.purpose = .free ∧ r.requester = k) then
          (s.port k).postNotice (.recallNotice r.frame id (dl - s.tick).toNat)
        else s.port k
      | none => s.port k := by
  have told : ∀ dl, ((s.recorded id r).notifyAll
      (hosts.filter (fun k => decide (r.targets.get k = some .notice) && !r.isOwnerTarget k))
      (.recallNotice r.frame id (ticksRemaining (s.recorded id r).tick dl))).port k =
        if r.targets.get k = some .notice ∧ ¬ (r.purpose = .free ∧ r.requester = k) then
          (s.port k).postNotice (.recallNotice r.frame id (dl - s.tick).toNat)
        else s.port k := by
    intro dl
    rw [State.notifyAll_port _ (hosts_nodup.filter _), State.recorded_port, State.recorded_tick, ticksRemaining]
    simp only [List.mem_filter, mem_hosts, true_and, Bool.and_eq_true, decide_eq_true_eq, Bool.not_eq_true',
      ← Bool.not_eq_true, RecallRecord.isOwnerTarget_iff]
  unfold State.openRecord
  cases r.deadline with
  | some dl => exact told dl
  | none => exact s.recorded_port id r k

theorem State.recorded_mem_drainChecks (s : State) (id : Nat) (r : RecallRecord) (k : HostId) (f : Nat) :
    (k, f) ∈ (s.recorded id r).drainChecks ↔ (k, f) ∈ s.drainChecks ∨
      (f = r.frame ∧ r.targets.get k = some .closing ∧
        ¬ (r.purpose = .free ∧ r.requester = k ∧ r.othersDrained k = false)) := by
  rw [State.recorded, State.moveRecord_drainChecks, List.mem_append,
    RecallRecord.mem_checksAsked_of_ready (old := { r with targets := PerHost.all none }) (new := r) rfl rfl (by simp)]
  simp

/-- Settles O13: the record is entered with its flags and checks, and then the notices are posted. -/
theorem recordOpened : Obligations.RecordOpened := by
  intro s id r
  obtain ⟨ports, opened⟩ := s.openRecord_eq id r
  obtain ⟨frames, recalls, checks, parts⟩ := s.recorded_parts id r
  refine ⟨_, rfl, fun j => ?_, fun f => ?_, s.openRecord_port id r, fun k f => ?_, ?_⟩
  · rw [opened]
    exact s.recorded_record id r j
  · rw [opened]
    exact s.recorded_frame id r f
  · rw [opened]
    exact s.recorded_mem_drainChecks id r k f
  · rw [opened, parts]

/-! ### Out of NOTICE -/

variable {sel : HostId → Bool}

theorem RecallRecord.close_parts (r : RecallRecord) (sel : HostId → Bool) :
    r.close sel = { r with targets := (r.close sel).targets, deadline := (r.close sel).deadline } :=
  (r.closeChosen sel).follow_eq

theorem RecallRecord.closeChosen_get (k : HostId) :
    (r.closeChosen sel).targets.get k =
      if r.targets.get k = some .notice ∧ sel k = true then some .closing else r.targets.get k := by
  rw [RecallRecord.closeChosen, PerHost.get_make]

theorem RecallRecord.closeChosen_notice_iff (k : HostId) :
    (r.closeChosen sel).targets.get k = some .notice ↔ r.targets.get k = some .notice ∧ sel k = false := by
  rw [RecallRecord.closeChosen_get]
  split
  · next h => simp [h.2]
  · next h =>
    refine ⟨fun hk => ⟨hk, ?_⟩, And.left⟩
    simpa [hk] using h

/-- The chosen targets close, and a FREE's owner's with the last other. -/
theorem RecallRecord.close_get (k : HostId) :
    (r.close sel).targets.get k =
      if r.targets.get k = some .notice ∧ (sel k = true ∨ (r.purpose = .free ∧ r.requester = k ∧
          ∀ j, j ≠ k → r.targets.get j = some .notice → sel j = true)) then some .closing
      else r.targets.get k := by
  rw [RecallRecord.close_eq, RecallRecord.follow_targets]
  simp only [ne_eq, RecallRecord.closeChosen_notice_iff]
  rw [RecallRecord.closeChosen_get]
  simp only [RecallRecord.closeChosen]
  by_cases notice : r.targets.get k = some .notice
  · by_cases chosen : sel k = true <;> simp [notice, chosen]
  · simp [notice]

theorem RecallRecord.close_deadline :
    (r.close sel).deadline = if ∃ k, (r.close sel).targets.get k = some .notice then r.deadline else none :=
  (r.closeChosen sel).follow_deadline

theorem RecallRecord.othersDrained_congr {q : RecallRecord} (h : ∀ k, q.undrained k = r.undrained k) (k : HostId) :
    q.othersDrained k = r.othersDrained k := by
  simp only [RecallRecord.othersDrained, h]

theorem RecallRecord.close_othersDrained (k : HostId) : (r.close sel).othersDrained k = r.othersDrained k :=
  RecallRecord.othersDrained_congr (r.close_undrained sel) k

theorem State.close_mem_drainChecks (s : State) (id : Nat) (r : RecallRecord) (sel : HostId → Bool) (k : HostId)
    (f : Nat) :
    (k, f) ∈ (s.moveRecord id r (r.close sel)).drainChecks ↔ (k, f) ∈ s.drainChecks ∨
      (f = r.frame ∧ (r.close sel).targets.get k = some .closing ∧ r.targets.get k ≠ some .closing ∧
        ¬ (r.purpose = .free ∧ r.requester = k ∧ r.othersDrained k = false)) := by
  have purpose : (r.close sel).purpose = r.purpose := by rw [RecallRecord.close_parts]
  have requester : (r.close sel).requester = r.requester := by rw [RecallRecord.close_parts]
  rw [State.moveRecord_drainChecks, List.mem_append, RecallRecord.mem_checksAsked_of_ready purpose requester,
    RecallRecord.close_othersDrained, RecallRecord.close_frame]
  intro _ others
  rwa [RecallRecord.close_othersDrained] at others

theorem State.close_frame (s : State) (id : Nat) (r : RecallRecord) (sel : HostId → Bool) (f : Nat) :
    (s.moveRecord id r (r.close sel)).frame f =
      if f = r.frame then
        { s.frame f with
          closing := PerHost.make (fun k => (s.frame f).closing.get k ||
            decide ((r.close sel).targets.get k = some .closing ∧ r.targets.get k ≠ some .closing)) }
      else s.frame f := by
  rw [State.moveRecord_frame, RecallRecord.close_frame]
  simp only [Bool.decide_and, ne_eq, decide_not]

/-- An upgrade and the closing of targets do not meet. -/
theorem RecallRecord.close_forced (r : RecallRecord) (sel : HostId → Bool) :
    ({ r with forced := true } : RecallRecord).close sel = { r.close sel with forced := true } := by
  have follow : ∀ q : RecallRecord, ({ q with forced := true } : RecallRecord).follow = { q.follow with forced := true } := by
    intro q
    unfold RecallRecord.follow RecallRecord.someOtherNotice RecallRecord.someNotice
    dsimp only
    split <;> rfl
  exact follow (r.closeChosen sel)

/-- Settles O14. -/
theorem targetsCloseTogether : Obligations.TargetsCloseTogether := by
  intro s id r sel
  refine ⟨_, _, rfl, rfl, r.close_parts sel, RecallRecord.close_get, RecallRecord.close_deadline,
    s.moveRecord_record id r (r.close sel), s.close_frame id r sel, s.close_mem_drainChecks id r sel,
    s.moveRecord_eq id r (r.close sel), fun hid => ?_⟩
  rw [State.upgradeRecord, hid]
  dsimp only
  rw [RecallRecord.close_forced]

/-! ### A grace expiry -/

/-- The record after its grace has expired: every target in NOTICE is in CLOSING, and no deadline (R52). -/
theorem RecallRecord.close_all (r : RecallRecord) :
    r.close (fun _ => true) =
      { r with
        deadline := none
        targets := PerHost.make (fun k => if r.targets.get k = some .notice then some .closing else r.targets.get k) } := by
  have targets : (r.close (fun _ => true)).targets =
      PerHost.make (fun k => if r.targets.get k = some .notice then some .closing else r.targets.get k) := by
    refine PerHost.ext_get fun k => ?_
    rw [RecallRecord.close_get, PerHost.get_make]
    simp
  rw [RecallRecord.close_parts, targets, RecallRecord.closeAll_deadline]

theorem RecallRecord.close_all_fresh_iff (k : HostId) :
    ((r.close (fun _ => true)).targets.get k = some .closing ∧ r.targets.get k ≠ some .closing) ↔
      r.targets.get k = some .notice := by
  rw [RecallRecord.close_get]
  by_cases notice : r.targets.get k = some .notice <;> simp [notice]

theorem State.graceExpiry_of_due {dl : BitVec 32} (hid : s.record id = some r) (hdl : r.deadline = some dl)
    (hdue : (s.tick - dl).toNat < 2 ^ 31) : s.graceExpiry id = s.moveRecord id r (r.close (fun _ => true)) := by
  simp only [State.graceExpiry, hid, hdl, if_pos ((deadlineReached_iff _ _).mpr hdue)]

/-- Settles O43. -/
theorem graceExpires : Obligations.GraceExpires := by
  intro s id r dl hid hdl
  refine ⟨fun hnot => ?_, fun hdue => ⟨s.moveRecord id r (r.close (fun _ => true)), ?_, fun j => ?_, fun f => ?_,
    fun k f => ?_, s.moveRecord_eq _ _ _⟩⟩
  · refine congrArg _ (s.graceExpiry_of_not_due id.val fun q e hq he => ?_)
    cases hid.symm.trans hq
    cases hdl.symm.trans he
    exact hnot
  · exact congrArg _ (State.graceExpiry_of_due hid hdl hdue)
  · rw [State.moveRecord_record, RecallRecord.close_all]
  · simp only [State.close_frame, RecallRecord.close_all_fresh_iff]
  · rw [State.close_mem_drainChecks]
    refine or_congr_right (and_congr_right fun _ => ?_)
    rw [← and_assoc, RecallRecord.close_all_fresh_iff]

/-! ### RELEASE -/

variable {h : HostId} {d : Desc}

/-- A change of a record and a completion do not meet. -/
theorem State.moveRecord_finish (old new : RecallRecord) (x : Result) :
    (s.moveRecord id old new).finish h d x = (s.finish h d x).moveRecord id old new := rfl

theorem releaseEffect_of_grantee (hf : d.frame < s.frameCount) (ho : (s.frame d.frame).owner ≠ some h) :
    releaseEffect h d s =
      match s.recallOf d.frame h with
      | some id =>
        match s.record id with
        | some r =>
          if r.targets.get h = some .notice then
            (s.moveRecord id r (r.close (fun k => decide (k = h)))).finish h d .ok
          else s.finish h d .late
        | none => s.finish h d .late
      | none => s.releaseUnrecorded h d := by
  exact (if_neg (Nat.not_le.mpr hf)).trans (if_neg ho)

/-- A RELEASE of a host whose access a record withdraws already: in NOTICE it closes the target, else it is LATE. -/
theorem releaseEffect_of_recalled {p : Phase} (hf : d.frame < s.frameCount) (ho : (s.frame d.frame).owner ≠ some h)
    (hr : s.Recalled d.frame h id r p) :
    releaseEffect h d s =
      if p = .notice then (s.finish h d .ok).moveRecord id r (r.close (fun k => decide (k = h)))
      else s.finish h d .late := by
  obtain ⟨hid, hrec, htarget⟩ := hr
  rw [releaseEffect_of_grantee hf ho, hid]
  dsimp only
  rw [hrec]
  simp only [htarget, Option.some.injEq, State.moveRecord_finish]

theorem releaseEffect_of_unrecalled (hf : d.frame < s.frameCount) (ho : (s.frame d.frame).owner ≠ some h)
    (hn : s.recallOf d.frame h = none) : releaseEffect h d s = s.releaseUnrecorded h d := by
  rw [releaseEffect_of_grantee hf ho, hn]

/-- Settles O16: the owner's case, the two phases of a target that stands, and the cases without a record in their order. -/
theorem releaseTaken : Obligations.ReleaseTaken := by
  intro s h d ht hf
  have hm := ht.member
  rw [exec_release ht]
  refine ⟨fun ho => ?_, fun ho => ⟨fun id r hr => ?_, fun id r hr => ?_, fun hn => ?_⟩⟩
  · have owner : ((s.beginTaking h).frame d.frame).owner = some h := ho
    rw [releaseEffect, if_neg (Nat.not_le.mpr (show d.frame < (s.beginTaking h).frameCount from hf)), if_pos owner,
      State.finish_taken hm]
  · rw [releaseEffect_of_recalled (s := s.beginTaking h) hf ho hr, if_pos rfl, State.finish_taken hm]
  · rw [releaseEffect_of_recalled (s := s.beginTaking h) hf ho hr, if_neg (by simp), State.finish_taken hm]
  · rw [releaseEffect_of_unrecalled (s := s.beginTaking h) hf ho hn, State.releaseUnrecorded]
    simp only [State.beginTaking_frame, State.beginTaking_freeRecordId, State.finish_taken hm]
    rcases s.freeRecordId with _ | id <;> rfl

/-! ### Entry into SCRUBBING -/

/-- Settles O42. -/
theorem ownedFrameEntersScrubbing : Obligations.OwnedFrameEntersScrubbing := by
  intro s f o ho hstate
  have owned : (s.frame f).isOwned = true := decide_eq_true hstate
  rw [State.enterScrubbing, if_pos owned, ho]
  cases hq : s.scrubQueue with
  | nil =>
    simp [State.lowerOwned, hq]
    rfl
  | cons g rest =>
    simp [State.lowerOwned, hq]
    rfl

end Sys2Proof.Machine
end

section
/-! SUPPORT. Drain checks, the drain of a target and of a swept access (R48 to R50, R66, R68, R69, R154), and the expiry of an
offer (R82). -/

namespace Sys2Proof.Machine

set_option Elab.async false

variable {s : State} {id : Nat} {r : RecallRecord} {h : HostId}

/-! ### The target drained -/

theorem RecallRecord.drained_parts (r : RecallRecord) (h : HostId) :
    r.drained h = { r with targets := (r.drained h).targets, deadline := (r.drained h).deadline } :=
  (r.setPhase h .drained).follow_eq

@[simp] theorem RecallRecord.drained_frame (r : RecallRecord) (h : HostId) : (r.drained h).frame = r.frame := by
  rw [RecallRecord.drained_parts]

@[simp] theorem RecallRecord.drained_purpose (r : RecallRecord) (h : HostId) : (r.drained h).purpose = r.purpose := by
  rw [RecallRecord.drained_parts]

@[simp] theorem RecallRecord.drained_requester (r : RecallRecord) (h : HostId) :
    (r.drained h).requester = r.requester := by
  rw [RecallRecord.drained_parts]

@[simp] theorem RecallRecord.drained_tag (r : RecallRecord) (h : HostId) : (r.drained h).tag = r.tag := by
  rw [RecallRecord.drained_parts]

/-- The target is DRAINED, and a FREE's owner's closes when no other but the drained one was in NOTICE (R49, R66). -/
theorem RecallRecord.drained_get (k : HostId) :
    (r.drained h).targets.get k =
      if k = h then some .drained
      else if r.purpose = .free ∧ r.requester = k ∧ r.targets.get k = some .notice ∧
          ∀ j, j ≠ k → j ≠ h → r.targets.get j ≠ some .notice then some .closing
      else r.targets.get k := by
  have notice : ∀ j, (r.setPhase h .drained).targets.get j = some .notice ↔ j ≠ h ∧ r.targets.get j = some .notice := by
    intro j
    by_cases hj : j = h <;> simp [RecallRecord.setPhase, hj]
  rw [RecallRecord.drained, RecallRecord.follow_targets]
  simp only [ne_eq, notice]
  by_cases hk : k = h
  · simp [hk, RecallRecord.setPhase]
  · simp [hk, RecallRecord.setPhase]

theorem RecallRecord.drained_deadline :
    (r.drained h).deadline = if ∃ k, (r.drained h).targets.get k = some .notice then r.deadline else none :=
  (r.setPhase h .drained).follow_deadline

theorem RecallRecord.allDrained_iff : r.allDrained = true ↔ ∀ k, r.undrained k = false := by
  simp [RecallRecord.allDrained]

/-- A drain closes anew only a FREE's owner's target. -/
theorem RecallRecord.isOwnerTarget_of_drained_fresh {k : HostId} (hnew : (r.drained h).targets.get k = some .closing)
    (hold : r.targets.get k ≠ some .closing) : r.purpose = .free ∧ r.requester = k := by
  rw [RecallRecord.drained_get] at hnew
  split at hnew
  · cases hnew
  · split at hnew
    · next hfree => exact ⟨hfree.1, hfree.2.1⟩
    · exact absurd hnew hold

/-- A drain asks at most for the check of a FREE's owner, when every other target is drained with this one (R66). -/
theorem RecallRecord.mem_checksAsked_drained (k : HostId) (f : Nat) :
    (k, f) ∈ RecallRecord.checksAsked r (r.drained h) ↔
      f = r.frame ∧ r.purpose = .free ∧ k = r.requester ∧ k ≠ h ∧ (r.drained h).targets.get k = some .closing ∧
        (r.drained h).othersDrained k = true ∧ ¬ (r.targets.get k = some .closing ∧ r.othersDrained k = true) := by
  rw [RecallRecord.mem_checksAsked, RecallRecord.drained_frame, RecallRecord.drained_requester]
  refine and_congr_right fun _ => ⟨?_, ?_⟩
  · rintro (⟨closing, fresh, other⟩ | ⟨rfl, ready, unready⟩)
    · have owner := RecallRecord.isOwnerTarget_of_drained_fresh closing fresh
      simp [RecallRecord.isOwnerTarget, owner] at other
    · obtain ⟨free, closing, others⟩ := RecallRecord.ownerReady_iff _ |>.mp ready
      rw [RecallRecord.drained_purpose] at free
      rw [RecallRecord.drained_requester] at closing others
      refine ⟨free, rfl, fun self => ?_, closing, others, fun before => ?_⟩
      · rw [RecallRecord.drained_get, if_pos self] at closing
        cases closing
      · have : r.ownerReady = true := r.ownerReady_iff.mpr ⟨free, before⟩
        simp [this] at unready
  · rintro ⟨free, rfl, -, closing, others, before⟩
    refine Or.inr ⟨rfl, (RecallRecord.ownerReady_iff _).mpr ?_, ?_⟩
    · rw [RecallRecord.drained_purpose, RecallRecord.drained_requester]
      exact ⟨free, closing, others⟩
    · rw [← Bool.not_eq_true, RecallRecord.ownerReady_iff]
      exact fun ready => before ready.2

/-! ### The state after the drain of a target -/

theorem State.noticeUnless_parts (s : State) (quiet : Bool) (r : RecallRecord) (h : HostId) :
    ∃ ports, s.noticeUnless quiet r h = { s with ports := ports } := ⟨_, s.noticeUnless_eq quiet r h⟩

theorem State.drainedTarget_parts (s : State) (id : Nat) (r : RecallRecord) (h : HostId) (quiet : Bool) :
    ∃ ports, s.drainedTarget id r h quiet =
      { (s.moveRecord id r (r.drained h)).updFrame r.frame (fun fr =>
        { fr with access := fr.access.set h .none, closing := fr.closing.set h false }) with ports := ports } :=
  ⟨_, State.noticeUnless_eq _ quiet r h⟩

/-- The frame of a drained target: the access is NONE with its flag clear, and newly closed targets have theirs set. -/
theorem State.drainedTarget_frame (s : State) (id : Nat) (r : RecallRecord) (h : HostId) (quiet : Bool) (f : Nat) :
    (s.drainedTarget id r h quiet).frame f =
      if f = r.frame then
        { s.frame f with
          access := (s.frame f).access.set h .none
          closing := PerHost.make (fun k => decide (k ≠ h) && ((s.frame f).closing.get k ||
            decide ((r.drained h).targets.get k = some .closing ∧ r.targets.get k ≠ some .closing))) }
      else s.frame f := by
  obtain ⟨ports, parts⟩ := s.drainedTarget_parts id r h quiet
  have moved := s.moveRecord_frame id r (r.drained h)
  rw [RecallRecord.drained_frame] at moved
  have same : ∀ (v : State) (ports : PerHost HostPort), ({ v with ports := ports } : State).frame f = v.frame f :=
    fun _ _ => rfl
  rw [parts, same, State.updFrame_eq, State.setFrame_frame, moved, moved]
  by_cases hf : f = r.frame
  · subst hf
    have closing : (PerHost.make (fun k => (s.frame r.frame).closing.get k ||
          (decide ((r.drained h).targets.get k = some .closing) && !decide (r.targets.get k = some .closing)))).set h
            false =
        PerHost.make (fun k => decide (k ≠ h) && ((s.frame r.frame).closing.get k ||
          decide ((r.drained h).targets.get k = some .closing ∧ r.targets.get k ≠ some .closing))) := by
      refine PerHost.ext_get fun k => ?_
      by_cases hk : k = h <;> simp [hk, Bool.decide_and]
    simp only [if_true, closing]
  · simp only [if_neg hf]

theorem State.drainedTarget_drainChecks (s : State) (id : Nat) (r : RecallRecord) (h : HostId) (quiet : Bool) :
    (s.drainedTarget id r h quiet).drainChecks = s.drainChecks ++ RecallRecord.checksAsked r (r.drained h) := by
  obtain ⟨ports, parts⟩ := s.drainedTarget_parts id r h quiet
  rw [parts]
  rfl

/-- The notice of a drain, of each purpose (R49, R62). -/
theorem State.drainNotice_port (s : State) (r : RecallRecord) (h k : HostId) :
    (s.drainNotice r h).port k =
      match r.purpose with
      | .revoke => if k = h then (s.port k).postNotice (.revoked r.frame .revoke) else s.port k
      | .free => if k = h ∧ k ≠ r.requester then (s.port k).postNotice (.revoked r.frame .free) else s.port k
      | .handover => if k = h then (s.port k).postNotice (.revoked r.frame .handover) else s.port k
      | .release =>
        if (s.frame r.frame).owner = some k then (s.port k).postNotice (.grantDropped r.frame h .release)
        else s.port k := by
  have notified : ∀ (g : HostId) (e : Event),
      (s.notify g e).port k = if k = g then (s.port k).postNotice e else s.port k := by
    intro g e
    rw [State.notify_eq, State.setPort_port]
    by_cases hk : k = g <;> simp [hk]
  unfold State.drainNotice
  cases r.purpose with
  | revoke => exact notified h _
  | free =>
    dsimp only
    by_cases self : h = r.requester
    · rw [if_pos self, if_neg (fun x => x.2 (x.1.trans self))]
    · rw [if_neg self, notified]
      by_cases hk : k = h <;> simp [hk, self]
  | handover => exact notified h _
  | release =>
    cases owner : (s.frame r.frame).owner with
    | none => rfl
    | some o =>
      dsimp only
      rw [notified]
      by_cases hk : k = o
      · simp [hk]
      · simp [hk, Ne.symm hk]

theorem State.drainedTarget_port (s : State) (id : Nat) (r : RecallRecord) (h : HostId) (quiet : Bool) (k : HostId) :
    (s.drainedTarget id r h quiet).port k =
      if quiet = true then s.port k
      else
        match r.purpose with
        | .revoke => if k = h then (s.port k).postNotice (.revoked r.frame .revoke) else s.port k
        | .free => if k = h ∧ k ≠ r.requester then (s.port k).postNotice (.revoked r.frame .free) else s.port k
        | .handover => if k = h then (s.port k).postNotice (.revoked r.frame .handover) else s.port k
        | .release =>
          if (s.frame r.frame).owner = some k then (s.port k).postNotice (.grantDropped r.frame h .release)
          else s.port k := by
  have owner : (((s.moveRecord id r (r.drained h)).updFrame r.frame (fun fr =>
      { fr with access := fr.access.set h .none, closing := fr.closing.set h false })).frame r.frame).owner =
        (s.frame r.frame).owner := by
    rw [State.updFrame_eq, State.setFrame_frame, if_pos rfl, State.moveRecord_frame]
    split <;> rfl
  unfold State.drainedTarget State.noticeUnless
  cases quiet with
  | true => rfl
  | false =>
    refine (State.drainNotice_port _ r h k).trans ?_
    rw [owner]
    rfl

/-! ### The completion of a record -/

theorem State.unrecorded_parts (s : State) (id f : Nat) :
    ∃ frames recalls, s.unrecorded id f = { s with frames := frames, recalls := recalls } := ⟨_, _, rfl⟩

@[simp] theorem State.enterScrubbing_port (s : State) (f : Nat) (k : HostId) :
    (s.enterScrubbing f).port k = s.port k := by
  rw [State.enterScrubbing_eq]
  rfl

/-- A completion into a reserved entry, if there is one (R129; log entry 17). -/
theorem HostPort.postCompletion_eq (p : HostPort) (e : Event) :
    p.postCompletion e =
      if p.portState = .member ∧ 0 < p.reserved then
        { p with
          events := p.events ++ [e], reserved := p.reserved - 1
          hirq := p.eventIe || (p.faultIe && !p.faults.isEmpty) }
      else p := by
  unfold HostPort.postCompletion
  split
  · rw [HostPort.refreshHirq, HostPort.hirqCondition_of_events (by simp)]
  · rfl

/-- Settles O41: the target drained with its notice, and when it was the last, the record's completion. -/
theorem lastDrainCompletesRecord : Obligations.LastDrainCompletesRecord := by
  intro s id r h quiet _ _
  have record := s.drainedTarget_record id r h quiet
  have frame := s.drainedTarget_frame id r h quiet
  refine ⟨r.drained h, s.drainedTarget id r h quiet, r.drained_parts h, RecallRecord.drained_get,
    RecallRecord.drained_deadline, record, frame, s.drainedTarget_port id r h quiet, fun k f => ?_,
    s.drainedTarget_eq id r h quiet, fun hsome => ?_, fun hall => ?_⟩
  · rw [State.drainedTarget_drainChecks, List.mem_append, RecallRecord.mem_checksAsked_drained]
  · obtain ⟨k, hk⟩ := hsome
    rw [State.drainTarget_eq, if_neg]
    rw [RecallRecord.allDrained_iff]
    intro hall
    simp [hall k] at hk
  · rw [State.drainTarget_eq, if_pos (RecallRecord.allDrained_iff.mpr hall), State.completeRecord_eq,
      RecallRecord.drained_purpose, RecallRecord.drained_requester, RecallRecord.drained_tag, RecallRecord.drained_frame]
    generalize s.drainedTarget id r h quiet = u at record frame
    obtain ⟨frames, recalls, parts⟩ := u.unrecorded_parts id r.frame
    refine ⟨u.unrecorded id r.frame, _, fun j => ?_, fun f => ?_, by rw [parts], rfl, ?_⟩
    · rw [State.unrecorded_record, record]
      split <;> rfl
    · rw [State.unrecorded_frame, frame]
      split
      · have removed : (fun j => j != id) = fun j => decide (j ≠ id) := by
          funext j
          by_cases hj : j = id <;> simp [hj]
        simp_all
      · rfl
    · have port : ((if r.purpose = .free then (u.unrecorded id r.frame).enterScrubbing r.frame
          else u.unrecorded id r.frame).port r.requester) = u.port r.requester := by
        split
        · rw [State.enterScrubbing_port, parts]
          rfl
        · rw [parts]
          rfl
      rw [State.complete_eq, port, HostPort.postCompletion_eq]

/-! ### Drain checks and reports -/

theorem State.drainReport_open {f : Nat} (hopen : (s.frame f).closing.get h = false) : s.drainReport h f = s :=
  if_pos hopen

theorem State.drainReport_recalled {f : Nat} (hclosing : (s.frame f).closing.get h = true)
    (hr : s.Recalled f h id r .closing) :
    s.drainReport h f =
      if r.purpose = .free ∧ r.requester = h ∧ r.othersDrained h = false then s else s.drainTarget id r h false := by
  obtain ⟨hid, hrec, htarget⟩ := hr
  simp only [State.drainReport, hclosing, hid, hrec, htarget, RecallRecord.isOwnerTarget_iff, and_assoc]
  simp

theorem State.drainReport_unrecalled {f : Nat} (hclosing : (s.frame f).closing.get h = true)
    (hn : s.recallOf f h = none) :
    s.drainReport h f = (s.forcedFreeingOf f).elim s (s.drainSwept h f) := by
  simp only [State.drainReport, hclosing, hn]
  cases s.forcedFreeingOf f <;> rfl

theorem State.forcedFreeingOf_eq_some_iff {f : Nat} {o : HostId} :
    s.forcedFreeingOf f = some o ↔
      (s.frame f).owner = some o ∧ ∃ d, s.departures.get o = some d ∧ d.phase = .sweeping f true := by
  unfold State.forcedFreeingOf
  cases (s.frame f).owner with
  | none => simp
  | some k =>
    dsimp only
    cases hd : s.departures.get k with
    | none =>
      refine iff_of_false (by simp) ?_
      rintro ⟨ho, d, hd', -⟩
      cases ho
      cases hd.symm.trans hd'
    | some d =>
      dsimp only
      constructor
      · intro hsome
        split at hsome
        · next phase =>
          cases hsome
          exact ⟨rfl, d, hd, phase⟩
        · cases hsome
      · rintro ⟨ho, d', hd', phase⟩
        cases ho
        cases hd.symm.trans hd'
        exact if_pos phase

theorem State.forcedFreeingOf_eq_none {f : Nat}
    (hn : ∀ o d, (s.frame f).owner = some o → s.departures.get o = some d → d.phase ≠ .sweeping f true) :
    s.forcedFreeingOf f = none := by
  by_contra hsome
  obtain ⟨o, ho⟩ := Option.ne_none_iff_exists'.mp hsome
  obtain ⟨owner, d, hd, phase⟩ := State.forcedFreeingOf_eq_some_iff.mp ho
  exact hn o d owner hd phase

/-- The last access besides the departing owner's is the one being drained. -/
theorem State.sweptHost_holders_eq_nil_iff {f : Nat} {o : HostId} :
    ((s.sweptHost h f).frame f).holders (fun k => decide (k = o)) = [] ↔
      ∀ k, k ≠ o → k ≠ h → (s.frame f).access.get k = .none := by
  have access : ((s.sweptHost h f).frame f).access = (s.frame f).access.set h .none := by
    rw [State.sweptHost, State.notify_eq, State.setPort_frame, State.updFrame_eq, State.setFrame_frame, if_pos rfl]
  simp only [List.eq_nil_iff_forall_not_mem, FrameRecord.mem_holders, access, decide_eq_false_iff_not, not_and,
    ne_eq, not_not, PerHost.get_set]
  refine forall₂_congr fun k _ => ?_
  by_cases hk : k = h <;> simp [hk]

/-- Settles O40: what remains of the check, the cases of a report, and the drain of a swept access. -/
theorem drainCheckMade : Obligations.DrainCheckMade := by
  refine ⟨fun s h f hmem => ?_, fun s h f => ⟨State.drainReport_open, fun id r => State.drainReport_recalled,
    fun o d hclosing hn ho hd phase => ?_, fun hclosing hn hnone => ?_⟩, fun s h o f d hd => ?_⟩
  · have made : exec (.drainCheck h f) s = .next (s.drainCheck h f) := if_pos hmem
    rw [made]
    refine ⟨fun hsome => congrArg _ (if_pos ?_), fun hnone => congrArg _ (if_neg ?_)⟩
    · simpa [TranslationUnit.holdsFrame, State.unit] using hsome
    · simpa [TranslationUnit.holdsFrame, State.unit] using hnone
  · rw [State.drainReport_unrecalled hclosing hn, State.forcedFreeingOf_eq_some_iff.mpr ⟨ho, d, hd, phase⟩,
      Option.elim_some]
  · rw [State.drainReport_unrecalled hclosing hn, State.forcedFreeingOf_eq_none hnone,
      Option.elim_none]
  · refine ⟨s.sweptHost h f, fun g => ?_, fun k => ?_, rfl, fun hsome => ?_, fun hlast => ?_⟩
    · rw [State.sweptHost, State.notify_eq, State.setPort_frame, State.updFrame_eq, State.setFrame_frame]
      split
      · next hg => rw [hg]
      · rfl
    · rw [State.sweptHost, State.notify_eq, State.setPort_port]
      split
      · next hk => rw [hk, State.updFrame_eq, State.setFrame_port]
      · rfl
    · obtain ⟨k, hko, hkh, access⟩ := hsome
      rw [State.drainSwept_eq, if_neg]
      rw [State.sweptHost_holders_eq_nil_iff]
      exact fun hall => access (hall k hko hkh)
    · rw [State.drainSwept_eq, if_pos (State.sweptHost_holders_eq_nil_iff.mpr hlast), hd]
      rfl

/-! ### An offer's expiry -/

/-- Settles O44. -/
theorem offerExpires : Obligations.OfferExpires := by
  intro s i serial o hslot
  have offer : (s.offerSlot i.val).offer = some o := by rw [hslot]
  refine ⟨fun hnot => ?_, fun hne hdue => ?_⟩
  · refine congrArg _ (s.offerExpiry_of_not_due i.val fun q hq => ?_)
    cases offer.symm.trans hq
    exact hnot
  · have due : deadlineReached s.tick o.deadline = true := (deadlineReached_iff _ _).mpr hdue
    have expired : s.offerExpiry i.val = s.expireOffer i.val o := by
      simp only [State.offerExpiry, offer, if_pos due]
    refine congrArg _ (expired.trans ?_)
    rw [State.expireOffer, hslot, State.removeOffer_eq, hslot, State.notify_eq, State.notify_eq]
    simp only [State.setPort_port, State.setFrame_port, State.setOfferSlot_port, if_neg hne.symm]

end Sys2Proof.Machine
end

section
/-! SUPPORT. The sweep of a departure and its end (R151 to R154, R156), and start-up: the load's end, link reports and reset
(R125, R141, R143, R144, R160 to R163, R166). -/

namespace Sys2Proof.Machine

set_option Elab.async false

variable {s : State} {h : HostId} {cause : Cause} {f : Nat}

/-! ### The end of a departure -/

theorem State.endDeparture_eq (s : State) (h : HostId) (cause : Cause) :
    ∃ ports, s.endDeparture h cause = { s with departures := s.departures.set h none, ports := ports } := by
  unfold State.endDeparture
  dsimp only
  rw [State.notifyAll_frame]
  exact ⟨_, rfl⟩

theorem State.endDeparture_port (s : State) (h : HostId) (cause : Cause) (k : HostId) :
    (s.endDeparture h cause).port k =
      if k = h then (s.port h).endLeaving cause else (s.port k).postNotice (.hostLeft h) := by
  have told : ∀ j, (({ s with departures := s.departures.set h none } : State).notifyAll
      (hosts.filter (fun k => !decide (k = h))) (.hostLeft h)).port j =
        if j = h then s.port j else (s.port j).postNotice (.hostLeft h) := by
    intro j
    rw [State.notifyAll_port _ (hosts_nodup.filter _)]
    by_cases hj : j = h
    · simp [hj, State.port]
    · simp [hj, State.port]
  unfold State.endDeparture
  dsimp only
  rw [State.updPort_eq, State.setPort_port, told, told, if_pos rfl]
  by_cases hk : k = h <;> simp [hk]

theorem HostPort.endLeaving_down {p : HostPort} (down : p.linkUp = false) :
    p.endLeaving cause = { p with portState := .down, eventIe := false, faultIe := false, hirq := false } :=
  if_neg (by simp [down])

theorem HostPort.endLeaving_link {p : HostPort} (up : p.linkUp = true) :
    p.endLeaving .link = { p with portState := .attached } := if_pos up

theorem HostPort.endLeaving_leave {p : HostPort} (up : p.linkUp = true) (tag : BitVec 16) :
    p.endLeaving (.leave tag) = { p with
      portState := .attached
      events := p.events ++ [Event.completion tag codeLeave .ok .none]
      hirq := p.eventIe || (p.faultIe && !p.faults.isEmpty) } := by
  have posted : p.endLeaving (.leave tag) = ({ p with
      portState := .attached, events := p.events ++ [Event.completion tag codeLeave .ok .none] } : HostPort).refreshHirq :=
    if_pos up
  rw [posted, HostPort.refreshHirq, HostPort.hirqCondition_of_events (by simp)]

theorem State.passSweep_of_lt (hf : f + 1 < s.frameCount) :
    s.passSweep h cause f = { s with departures := s.departures.set h (some ⟨cause, .sweeping (f + 1) false⟩) } :=
  if_pos hf

theorem State.passSweep_last (hf : f + 1 = s.frameCount) : s.passSweep h cause f = s.endDeparture h cause :=
  if_neg (by omega)

/-- Settles O48. -/
theorem lastPassEndsDeparture : Obligations.LastPassEndsDeparture := by
  intro s h cause f
  refine ⟨State.passSweep_of_lt, fun hf => ⟨_, State.passSweep_last hf, ?_, fun k hk => ?_, fun down => ?_,
    fun up hcause => ?_, fun tag up hcause => ?_⟩⟩
  · obtain ⟨ports, ended⟩ := s.endDeparture_eq h cause
    rw [ended]
  · rw [State.endDeparture_port, if_neg hk]
  · rw [State.endDeparture_port, if_pos rfl, HostPort.endLeaving_down down]
  · rw [State.endDeparture_port, if_pos rfl, hcause, HostPort.endLeaving_link up]
  · rw [State.endDeparture_port, if_pos rfl, hcause, HostPort.endLeaving_leave up]

/-! ### A sweep step -/

theorem exec_sweepStep (hd : s.departures.get h = some ⟨cause, .sweeping f false⟩) :
    exec (.sweepStep h) s = .next (s.sweepAt h cause f) := by
  show execSweepStep h s = _
  rw [execSweepStep, hd]

theorem exec_sweepStep_waits (hd : s.departures.get h = some ⟨cause, .sweeping f true⟩) :
    exec (.sweepStep h) s = .next s := by
  show execSweepStep h s = _
  rw [execSweepStep, hd]

/-- A frame that the departing host owns or has access to. -/
def State.Involved (s : State) (h : HostId) (f : Nat) : Prop :=
  (s.frame f).owner = some h ∨ (s.frame f).access.get h ≠ .none

theorem State.sweepAt_unrelated (hn : ¬ s.Involved h f) : s.sweepAt h cause f = s.passSweep h cause f := by
  unfold State.Involved at hn
  exact if_pos (by tauto)

/-- The step at a frame that involves the host, with neither its access closing nor a record on the frame. -/
theorem State.sweepAt_involved (hi : s.Involved h f) (hopen : (s.frame f).closing.get h = false)
    (hset : (s.frame f).recallSet = []) :
    s.sweepAt h cause f =
      if (s.frame f).owner ≠ some h then (s.removeGrant f h).passSweep h cause f
      else if (s.frame f).state = .held then
        (if (s.frame f).inheritFlag then s.heirOf f h else none).elim (s.beginForcedFreeing f h cause)
          (fun k => (s.inheritFrame f h k).passSweep h cause f)
      else s := by
  have involved : ¬ ((s.frame f).owner ≠ some h ∧ (s.frame f).access.get h = .none) := by
    unfold State.Involved at hi
    tauto
  unfold State.sweepAt
  dsimp only
  rw [if_neg involved, if_neg (by simp [hopen]), if_neg (by simp [hset])]
  refine ite_congr rfl (fun _ => rfl) fun _ => ite_congr rfl (fun _ => ?_) fun _ => rfl
  cases (if (s.frame f).inheritFlag then s.heirOf f h else none) <;> rfl

theorem State.sweepAt_waits (hi : s.Involved h f)
    (hw : (s.frame f).closing.get h = true ∨ (s.frame f).recallSet ≠ []) : s.sweepAt h cause f = s := by
  have involved : ¬ ((s.frame f).owner ≠ some h ∧ (s.frame f).access.get h = .none) := by
    unfold State.Involved at hi
    tauto
  unfold State.sweepAt
  dsimp only
  rw [if_neg involved]
  split
  · rfl
  · next hopen => exact if_pos (hw.resolve_left hopen)

theorem State.removeGrant_eq {o : HostId} (ho : (s.frame f).owner = some o) :
    s.removeGrant f h =
      (s.setFrame f { s.frame f with access := (s.frame f).access.set h .none }).notify o (.grantDropped f h .depart) := by
  have owner : ((s.updFrame f (fun fr => { fr with access := fr.access.set h .none })).frame f).owner = some o := by
    rw [State.updFrame_eq, State.setFrame_frame, if_pos rfl]
    exact ho
  unfold State.removeGrant
  dsimp only
  rw [owner]
  rfl

/-! ### Inheritance -/

/-- The state after the frame and the counts have changed hands, before the notices (R153). -/
def State.inherited (s : State) (f : Nat) (h k : HostId) : State :=
  { s.setFrame f { s.frame f with owner := some k, access := (s.frame f).access.set h .none } with
    owned := (s.owned.set h (s.owned.get h - 1)).set k ((s.owned.set h (s.owned.get h - 1)).get k + 1) }

theorem State.inherited_frame (s : State) (f : Nat) (h k : HostId) (g : Nat) :
    (s.inherited f h k).frame g =
      if g = f then { s.frame g with owner := some k, access := (s.frame g).access.set h .none } else s.frame g := by
  refine (State.setFrame_frame s f _ g).trans ?_
  split
  · next hg => rw [hg]
  · rfl

theorem State.inheritFrame_eq (s : State) (f : Nat) (h k : HostId) :
    s.inheritFrame f h k =
      ((s.inherited f h k).notify k (.ownershipReceived f h ((s.inherited f h k).frame f).label)).notifyAll
        (((s.inherited f h k).frame f).holders (fun j => decide (j = k ∨ j = h))) (.ownerChanged f k .inherit) := rfl

theorem State.inheritFrame_parts (s : State) (f : Nat) (h k : HostId) :
    ∃ ports, s.inheritFrame f h k = { s.inherited f h k with ports := ports } := by
  rw [State.inheritFrame_eq, State.notifyAll_frame]
  exact ⟨_, rfl⟩

theorem State.inheritFrame_port (s : State) (f : Nat) {h k : HostId} (j : HostId) :
    (s.inheritFrame f h k).port j =
      if j = k then (s.port j).postNotice (.ownershipReceived f h (s.frame f).label)
      else if j ≠ h ∧ (s.frame f).access.get j ≠ .none then (s.port j).postNotice (.ownerChanged f k .inherit)
      else s.port j := by
  have label : ((s.inherited f h k).frame f).label = (s.frame f).label := by
    rw [State.inherited_frame, if_pos rfl]
  have access : ((s.inherited f h k).frame f).access = (s.frame f).access.set h .none := by
    rw [State.inherited_frame, if_pos rfl]
  have port : ∀ i, (s.inherited f h k).port i = s.port i := fun _ => rfl
  rw [State.inheritFrame_eq, State.notifyAll_port _ (FrameRecord.holders_nodup _ _), State.notify_eq,
    State.setPort_port, port, port, label]
  simp only [FrameRecord.mem_holders, access, decide_eq_false_iff_not, not_or, PerHost.get_set]
  by_cases hk : j = k
  · simp [hk]
  · by_cases hh : j = h
    · subst hh
      simp [hk]
    · simp [hk, hh]

/-! ### Forced freeing -/

/-- The state after the others' accesses are closed and their checks asked (R154). -/
def State.forcedFreeing (s : State) (f : Nat) (h : HostId) (cause : Cause) : State :=
  let others := (s.frame f).holders (fun k => decide (k = h))
  { s.setFrame f { s.frame f with closing := PerHost.make (fun k =>
      (s.frame f).closing.get k || decide (k ∈ others)) } with
    drainChecks := s.drainChecks ++ others.map (fun k => (k, f))
    departures := s.departures.set h (some ⟨cause, .sweeping f true⟩) }

theorem State.beginForcedFreeing_alone (halone : ∀ k, k ≠ h → (s.frame f).access.get k = .none) :
    s.beginForcedFreeing f h cause = (s.enterScrubbing f).passSweep h cause f := by
  refine if_pos (List.eq_nil_iff_forall_not_mem.mpr fun k hk => ?_)
  obtain ⟨other, access⟩ := (FrameRecord.mem_holders _ _ _).mp hk
  exact access (halone k (by simpa using other))

theorem State.beginForcedFreeing_shared (hshared : ∃ k, k ≠ h ∧ (s.frame f).access.get k ≠ .none) :
    s.beginForcedFreeing f h cause = s.forcedFreeing f h cause := by
  obtain ⟨k, other, access⟩ := hshared
  refine if_neg (List.ne_nil_of_mem ((FrameRecord.mem_holders _ _ k).mpr ⟨?_, access⟩))
  simpa using other

theorem State.forcedFreeing_frame (s : State) (f : Nat) (h : HostId) (cause : Cause) (g : Nat) :
    (s.forcedFreeing f h cause).frame g =
      if g = f then
        { s.frame g with
          closing := PerHost.make (fun k => (s.frame g).closing.get k ||
            decide (k ≠ h ∧ (s.frame g).access.get k ≠ .none)) }
      else s.frame g := by
  refine (State.setFrame_frame s f _ g).trans ?_
  split
  · next hg =>
    subst hg
    simp [FrameRecord.mem_holders]
  · rfl

theorem State.forcedFreeing_mem_drainChecks (s : State) (f : Nat) (h : HostId) (cause : Cause) (k : HostId) (g : Nat) :
    (k, g) ∈ (s.forcedFreeing f h cause).drainChecks ↔ (k, g) ∈ s.drainChecks ∨
      (g = f ∧ k ≠ h ∧ (s.frame f).access.get k ≠ .none) := by
  show (k, g) ∈ s.drainChecks ++ ((s.frame f).holders (fun k => decide (k = h))).map (fun k => (k, f)) ↔ _
  simp only [List.mem_append, List.mem_map, FrameRecord.mem_holders, decide_eq_false_iff_not, Prod.mk.injEq]
  refine or_congr_right ⟨?_, ?_⟩
  · rintro ⟨j, ⟨other, access⟩, rfl, rfl⟩
    exact ⟨rfl, other, access⟩
  · rintro ⟨rfl, other, access⟩
    exact ⟨k, ⟨other, access⟩, rfl, rfl⟩

/-- Settles O47: the cases of R151 in their order. -/
theorem sweepStepTaken : Obligations.SweepStepTaken := by
  intro s h cause f
  refine ⟨exec_sweepStep_waits, fun hd => ?_⟩
  rw [exec_sweepStep hd]
  refine ⟨fun ho ha => congrArg _ (State.sweepAt_unrelated fun hi => hi.elim ho fun hne => hne ha),
    fun hi hw => congrArg _ (State.sweepAt_waits hi hw), fun hopen hset => ⟨fun o ho hne ha => ?_,
    fun k ho hstate hflag hheir => ?_, fun ho hstate hnone => ?_⟩⟩
  · have other : (s.frame f).owner ≠ some h := by simpa [ho] using hne
    rw [State.sweepAt_involved (Or.inr ha) hopen hset, if_pos other, State.removeGrant_eq ho]
  · obtain ⟨ports, parts⟩ := s.inheritFrame_parts f h k
    obtain ⟨⟨different, -⟩, -⟩ := State.heirOf_some hheir
    refine ⟨s.inheritFrame f h k, ?_, fun g => ?_, s.inheritFrame_port f, ?_⟩
    · rw [State.sweepAt_involved (Or.inl ho) hopen hset, if_neg (not_not.mpr ho), if_pos hstate, if_pos hflag, hheir,
        Option.elim_some]
    · rw [parts]
      exact s.inherited_frame f h k g
    · rw [parts, State.inherited, PerHost.get_set_ne _ _ different]
      rfl
  · have free : s.sweepAt h cause f = s.beginForcedFreeing f h cause := by
      have heirless : (if (s.frame f).inheritFlag then s.heirOf f h else none) = none := by
        rcases hnone with hflag | hheir
        · simp [hflag]
        · simp [hheir]
      rw [State.sweepAt_involved (Or.inl ho) hopen hset, if_neg (not_not.mpr ho), if_pos hstate, heirless,
        Option.elim_none]
    rw [free]
    refine ⟨fun halone => congrArg _ (State.beginForcedFreeing_alone halone), fun hshared => ?_⟩
    exact ⟨s.forcedFreeing f h cause, congrArg _ (State.beginForcedFreeing_shared hshared),
      s.forcedFreeing_frame f h cause, s.forcedFreeing_mem_drainChecks f h cause, rfl⟩

/-! ### The load -/

theorem framesOfCode_strapCode (strap : BitVec 2) :
    framesOfCode (strapCode strap) = if strap = 1 then 8192 else if strap = 2 then 16384 else 4096 := by
  revert strap
  decide

theorem framesOfCode_le_iff {a b : Nat} : framesOfCode a ≤ framesOfCode b ↔ a ≤ b := by
  unfold framesOfCode
  rw [Nat.mul_le_mul_left_iff (by decide), Nat.pow_le_pow_iff_right (by decide)]

/-- The checks of R161, of the image's fields. -/
theorem imagePasses_iff (img : List Byte) (strap : BitVec 2) :
    imagePasses img strap = true ↔
      (crc16 (img.take 62)).toNat = beNat16 img 62 ∧ byteAt img 0 = 0x3A ∧ (byteAt img 1).toNat ≤ 2 ∧
        framesOfCode (byteAt img 1).toNat ≤ framesOfCode (strapCode strap) ∧
        (∀ k, imageQuota img k ≤ framesOfCode (byteAt img 1).toNat) ∧ beNat16 img 12 ≠ 0 ∧ beNat16 img 14 ≠ 0 := by
  simp [imagePasses, framesOfCode_le_iff, and_assoc]

theorem forall_imageQuota_le_iff (img : List Byte) (n : Nat) :
    (∀ k, imageQuota img k ≤ n) ↔
      beNat16 img 4 ≤ n ∧ beNat16 img 6 ≤ n ∧ beNat16 img 8 ≤ n ∧ beNat16 img 10 ≤ n := by
  refine ⟨fun h => ⟨h 0, h 1, h 2, h 3⟩, fun ⟨h0, h1, h2, h3⟩ k => ?_⟩
  fin_cases k
  · exact h0
  · exact h1
  · exact h2
  · exact h3

theorem State.loadUnderWay_iff : s.loadUnderWay = true ↔ s.resetAsserted = false ∧ s.load = .loading := by
  simp [State.loadUnderWay]

theorem exec_imageReceived {image : List Byte} (hw : s.loadUnderWay = true) (ht : s.tick.toNat < 100)
    (hlength : image.length = 64) :
    exec (.imageReceived image) s =
      if imagePasses image s.strap then .next (s.enterConfiguration .loaded (imageConfiguration image))
      else .next (s.enterConfiguration .defaulted (defaultConfiguration s.strap)) :=
  if_pos ⟨hw, ht, hlength⟩

/-- Settles O50. -/
theorem loadEnds : Obligations.LoadEnds := by
  intro s
  refine ⟨fun hidle => ?_, ?_⟩
  · have idle : ¬ s.loadUnderWay = true := by
      rw [State.loadUnderWay_iff]
      rintro ⟨hr, hl⟩
      rcases hidle with h | h
      · simp [hr] at h
      · exact h hl
    exact ⟨congrArg _ (if_neg fun x => idle x.1), fun image => if_neg fun x => idle x.1⟩
  · intro hr hl n entered defaulted
    have way : s.loadUnderWay = true := State.loadUnderWay_iff.mpr ⟨hr, hl⟩
    have frames : framesOfCode (strapCode s.strap) = n := framesOfCode_strapCode s.strap
    have ended : s.enterConfiguration .defaulted (defaultConfiguration s.strap) = defaulted := by
      rw [defaultConfiguration, frames]
      rfl
    refine ⟨fun ht => ?_, fun ht => ?_, fun ht image => ?_, ?_⟩
    · exact congrArg _ ((if_pos ⟨way, ht⟩).trans ended)
    · exact congrArg _ (if_neg fun x => ht.ne x.2)
    · exact if_neg fun x => Nat.not_lt.mpr ht x.2.1
    · intro image ht hlength size word
      have passes_iff := imagePasses_iff image s.strap
      rw [forall_imageQuota_le_iff, frames] at passes_iff
      rw [exec_imageReceived way ht hlength]
      refine ⟨fun hfails => ?_, fun crc kind code room q0 q1 q2 q3 grace lifetime => ?_⟩
      · rw [if_neg, ended]
        rw [passes_iff]
        rintro ⟨crc, kind, code, room, ⟨q0, q1, q2, q3⟩, grace, lifetime⟩
        rcases hfails with h | h | h | h | h | h | h | h | h | h
        · exact h crc
        · exact h kind
        · exact Nat.not_lt.mpr code h
        · exact Nat.not_lt.mpr room h
        · exact Nat.not_lt.mpr q0 h
        · exact Nat.not_lt.mpr q1 h
        · exact Nat.not_lt.mpr q2 h
        · exact Nat.not_lt.mpr q3 h
        · exact grace h
        · exact lifetime h
      · rw [if_pos (passes_iff.mpr ⟨crc, kind, code, room, ⟨q0, q1, q2, q3⟩, grace, lifetime⟩)]
        rfl

/-! ### Link reports -/

theorem TranslationUnit.mem_creditTags (u : TranslationUnit) (tag : Fin 32) :
    tag ∈ u.creditTags ↔ ∀ e ∈ u.ort, e.tag ≠ tag := by
  simp [TranslationUnit.creditTags, TranslationUnit.holdsTag]

theorem TranslationUnit.creditTags_nodup (u : TranslationUnit) : u.creditTags.Nodup := (List.nodup_finRange 32).filter _

theorem exec_linkDown (s : State) (h : HostId) :
    exec (.linkDown h) s =
      match (s.port h).portState with
      | .down => .next s
      | .attached => .next (s.updPort h (fun p => { p.clearLists with portState := .down, linkUp := false }))
      | .member => .next ((s.updPort h (fun p => { p with linkUp := false })).startDeparture h .link)
      | .leaving => .next (s.updPort h (fun p => { p with linkUp := false })) := rfl

/-- Settles O51. -/
theorem linksReported : Obligations.LinksReported := by
  intro s h
  refine ⟨fun up => if_pos (Or.inr up), fun hr down hstate => ?_, fun hstate => ?_, fun hstate => ?_, fun hstate => ?_⟩
  · refine ⟨(s.unit h).creditTags, TranslationUnit.mem_creditTags _, TranslationUnit.creditTags_nodup _, ?_⟩
    have comesUp : exec (.linkUp h) s = .next (s.linkComesUp h) := if_neg (by simp [hr, down])
    rw [comesUp, State.linkComesUp, State.updPort_eq]
    rcases hstate with hstate | hstate <;> simp [hstate]
  · rw [exec_linkDown, hstate]
  · rw [exec_linkDown, hstate]
    rfl
  · rw [exec_linkDown, hstate]
    rfl

/-! ### Reset -/

/-- Settles O52. -/
theorem resetTakenAndReleased : Obligations.ResetTakenAndReleased := by
  intro s strap
  refine ⟨⟨_, rfl, rfl, rfl, rfl, rfl, rfl, rfl, rfl, rfl, fun h => PerHost.get_all _ h, fun h => PerHost.get_all _ h,
    fun _ => rfl, fun _ => rfl, rfl, fun h => ⟨PerHost.get_all _ h, PerHost.get_all _ h, PerHost.get_all _ h⟩, rfl, rfl,
    rfl, rfl, rfl, rfl, rfl, rfl, rfl, fun _ => rfl, fun _ => rfl⟩, fun hr => ?_⟩
  exact ⟨if_pos hr, if_pos hr, fun h => if_pos (Or.inl hr)⟩

end Sys2Proof.Machine
end

section
/-! SUPPORT. The parts of a departure's start: the offers closed, the records upgraded, the wait list served (R23, R58, R84,
R147, R148). -/

namespace Sys2Proof.Machine

set_option Elab.async false

/-! ### Ranked order -/

theorem insertRanked_pairwise (rank : Nat → Nat) (x : Nat) {l : List Nat}
    (hl : l.Pairwise (fun a b => rank a ≤ rank b)) : (insertRanked rank x l).Pairwise (fun a b => rank a ≤ rank b) := by
  induction l with
  | nil => exact List.pairwise_singleton _ _
  | cons y ys ih =>
    obtain ⟨first, rest⟩ := List.pairwise_cons.mp hl
    rw [insertRanked]
    split
    · next hyx =>
      refine List.pairwise_cons.mpr ⟨fun z hz => ?_, ih rest⟩
      rcases (mem_insertRanked rank x z ys).mp hz with rfl | hz
      · exact hyx
      · exact first z hz
    · next hxy =>
      have least : rank x ≤ rank y := by omega
      refine List.pairwise_cons.mpr ⟨fun z hz => ?_, hl⟩
      rcases List.mem_cons.mp hz with rfl | hz
      · exact least
      · exact least.trans (first z hz)

theorem sortRanked_pairwise (rank : Nat → Nat) (l : List Nat) :
    (sortRanked rank l).Pairwise (fun a b => rank a ≤ rank b) := by
  induction l with
  | nil => exact List.Pairwise.nil
  | cons x xs ih => exact insertRanked_pairwise rank x ih

/-! ### The offers of the departing host -/

/-- The open offer of a slot is removed and the other party told (R84). -/
def State.closeOffer (h : HostId) (s : State) (i : Nat) : State :=
  match (s.offerSlot i).offer with
  | some o =>
    (s.removeOffer i o).notify (if o.giver = h then o.recipient else o.giver)
      (.offerClosed ⟨i, (s.offerSlot i).serial⟩ o.frame .partyLeft)
  | none => s

/-- The host is a party to the open offer of the slot. -/
def State.partyTo (s : State) (h : HostId) (i : Nat) : Bool :=
  match (s.offerSlot i).offer with
  | some o => decide (o.giver = h ∨ o.recipient = h)
  | none => false

/-- The frame of the open offer of a slot. -/
def State.offerFrame (s : State) (i : Nat) : Nat :=
  match (s.offerSlot i).offer with
  | some o => o.frame
  | none => 0

/-- The slots of the host's offers, in ascending order of the frame (R84, R131). -/
def State.slotsOf (s : State) (h : HostId) : List Nat :=
  sortRanked s.offerFrame ((List.range Config.offerCount).filter (s.partyTo h))

/-- A slot after the offer in it, if any, was removed (R71). -/
def State.closedSlot (s : State) (i : Nat) : OfferSlot :=
  match (s.offerSlot i).offer with
  | some _ => ⟨(s.offerSlot i).serial + 1, none⟩
  | none => s.offerSlot i

/-- What host `k`'s port makes of the removal of the offer of a slot. -/
def State.partyTold (s : State) (h k : HostId) (p : HostPort) (i : Nat) : HostPort :=
  match (s.offerSlot i).offer with
  | some o =>
    if (if o.giver = h then o.recipient else o.giver) = k then
      p.postNotice (.offerClosed ⟨i, (s.offerSlot i).serial⟩ o.frame .partyLeft)
    else p
  | none => p

variable {s : State} {h : HostId}

theorem State.closeOffersOf_eq (s : State) (h : HostId) :
    s.closeOffersOf h = (s.slotsOf h).foldl (State.closeOffer h) s := rfl

theorem State.partyTo_iff {i : Nat} :
    s.partyTo h i = true ↔ ∃ o, (s.offerSlot i).offer = some o ∧ (o.giver = h ∨ o.recipient = h) := by
  unfold State.partyTo
  cases (s.offerSlot i).offer <;> simp

theorem State.mem_slotsOf {i : Nat} :
    i ∈ s.slotsOf h ↔ i < Config.offerCount ∧ ∃ o, (s.offerSlot i).offer = some o ∧ (o.giver = h ∨ o.recipient = h) := by
  rw [State.slotsOf, mem_sortRanked, List.mem_filter, List.mem_range, State.partyTo_iff]

theorem State.slotsOf_nodup : (s.slotsOf h).Nodup := (sortRanked_perm _ _).nodup_iff.mpr (List.nodup_range.filter _)

theorem State.closeOffer_offerSlot (i j : Nat) :
    (s.closeOffer h i).offerSlot j = if j = i then s.closedSlot i else s.offerSlot j := by
  unfold State.closeOffer State.closedSlot
  cases (s.offerSlot i).offer with
  | none =>
    dsimp only
    split
    · next hj => rw [hj]
    · rfl
  | some o =>
    dsimp only
    rw [State.notify_eq, State.setPort_offerSlot, State.removeOffer_offerSlot]

theorem State.closeOffer_port (i : Nat) (k : HostId) :
    (s.closeOffer h i).port k = s.partyTold h k (s.port k) i := by
  unfold State.closeOffer State.partyTold
  cases (s.offerSlot i).offer with
  | none => rfl
  | some o =>
    have removed : ∀ j, (s.removeOffer i o).port j = s.port j := fun _ => rfl
    dsimp only
    rw [State.notify_eq, State.setPort_port, removed, removed]
    by_cases hk : (if o.giver = h then o.recipient else o.giver) = k
    · rw [if_pos hk.symm, if_pos hk, hk]
    · rw [if_neg (Ne.symm hk), if_neg hk]

theorem State.closeOffer_frame (i f : Nat) :
    (s.closeOffer h i).frame f =
      if ∃ o, (s.offerSlot i).offer = some o ∧ o.frame = f then { s.frame f with offer := none } else s.frame f := by
  unfold State.closeOffer
  cases (s.offerSlot i).offer with
  | none => simp
  | some o =>
    dsimp only
    rw [State.notify_eq, State.setPort_frame, State.removeOffer_frame]
    simp [eq_comm]

theorem State.removeOffer_parts (s : State) (i : Nat) (o : Offer) :
    ∃ frames offers, s.removeOffer i o = { s with frames := frames, offers := offers } := ⟨_, _, rfl⟩

theorem State.closeOffer_parts (i : Nat) : ∃ ports frames offers,
    s.closeOffer h i = { s with ports := ports, frames := frames, offers := offers } := by
  unfold State.closeOffer
  cases (s.offerSlot i).offer with
  | none => exact ⟨s.ports, s.frames, s.offers, rfl⟩
  | some o =>
    obtain ⟨frames, offers, removed⟩ := s.removeOffer_parts i o
    dsimp only
    rw [State.notify_eq, removed]
    exact ⟨_, _, _, rfl⟩

section
variable {l : List Nat}

theorem State.closeOffers_parts (s : State) (h : HostId) (l : List Nat) : ∃ ports frames offers,
    l.foldl (State.closeOffer h) s = { s with ports := ports, frames := frames, offers := offers } := by
  induction l generalizing s with
  | nil => exact ⟨_, _, _, rfl⟩
  | cons i l ih =>
    obtain ⟨_, _, _, step⟩ := s.closeOffer_parts (h := h) i
    obtain ⟨_, _, _, rest⟩ := ih (s.closeOffer h i)
    rw [List.foldl_cons, rest, step]
    exact ⟨_, _, _, rfl⟩

/-- The slots that remain to be closed are as they were. -/
theorem State.closeOffer_offerSlot_of_mem {i j : Nat} (hn : (i :: l).Nodup) (hj : j ∈ l) :
    (s.closeOffer h i).offerSlot j = s.offerSlot j := by
  rw [State.closeOffer_offerSlot, if_neg]
  rintro rfl
  exact (List.nodup_cons.mp hn).1 hj

theorem State.closeOffers_offerSlot (hn : l.Nodup) (j : Nat) :
    (l.foldl (State.closeOffer h) s).offerSlot j = if j ∈ l then s.closedSlot j else s.offerSlot j := by
  induction l generalizing s with
  | nil => rfl
  | cons i l ih =>
    obtain ⟨hi, hl⟩ := List.nodup_cons.mp hn
    rw [List.foldl_cons, ih hl]
    by_cases hj : j ∈ l
    · have later := State.closeOffer_offerSlot_of_mem (s := s) (h := h) hn hj
      rw [if_pos hj, if_pos (List.mem_cons_of_mem i hj), State.closedSlot, later, State.closedSlot]
    · rw [if_neg hj, State.closeOffer_offerSlot]
      by_cases hji : j = i <;> simp [hj, hji]

theorem State.closeOffers_port (hn : l.Nodup) (k : HostId) :
    (l.foldl (State.closeOffer h) s).port k = l.foldl (s.partyTold h k) (s.port k) := by
  induction l generalizing s with
  | nil => rfl
  | cons i l ih =>
    rw [List.foldl_cons, ih (List.nodup_cons.mp hn).2, List.foldl_cons, State.closeOffer_port]
    refine List.foldl_ext _ _ _ fun p j hj => ?_
    rw [State.partyTold, State.closeOffer_offerSlot_of_mem hn hj, State.partyTold]

theorem State.closeOffers_frame (hn : l.Nodup) (f : Nat) :
    (l.foldl (State.closeOffer h) s).frame f =
      if ∃ i ∈ l, ∃ o, (s.offerSlot i).offer = some o ∧ o.frame = f then { s.frame f with offer := none }
      else s.frame f := by
  induction l generalizing s with
  | nil => simp
  | cons i l ih =>
    have later : (∃ j ∈ l, ∃ o, ((s.closeOffer h i).offerSlot j).offer = some o ∧ o.frame = f) ↔
        ∃ j ∈ l, ∃ o, (s.offerSlot j).offer = some o ∧ o.frame = f := by
      refine exists_congr fun j => and_congr_right fun hj => ?_
      rw [State.closeOffer_offerSlot_of_mem hn hj]
    rw [List.foldl_cons, ih (List.nodup_cons.mp hn).2]
    simp only [later, State.closeOffer_frame, List.mem_cons, exists_eq_or_imp]
    by_cases first : ∃ o, (s.offerSlot i).offer = some o ∧ o.frame = f
    · simp [first]
    · simp [first]

end

/-! ### The records of the departing host -/

/-- A record that the host requested is upgraded (R58). -/
def State.upgradeOf (h : HostId) (s : State) (id : Nat) : State :=
  match s.record id with
  | some r => if r.requester = h then s.upgradeRecord id else s
  | none => s

/-- A record after the upgrade of those of the host: FORCED, with no target in NOTICE and no deadline (R58). -/
def RecallRecord.upgradedFor (h : HostId) (r : RecallRecord) : RecallRecord :=
  if r.requester = h then
    { r with
      forced := true
      deadline := none
      targets := PerHost.make (fun k => if r.targets.get k = some .notice then some .closing else r.targets.get k) }
  else r

/-- A target of one of the host's records that the upgrade takes out of NOTICE. -/
def State.Upgrades (s : State) (h : HostId) (id : Nat) (k : HostId) (f : Nat) : Prop :=
  ∃ r, s.record id = some r ∧ r.requester = h ∧ r.frame = f ∧ r.targets.get k = some .notice

/-- A target that the upgrade takes out of NOTICE and whose drain check is asked (R47, R66). -/
def State.UpgradeChecks (s : State) (h : HostId) (id : Nat) (k : HostId) (f : Nat) : Prop :=
  ∃ r, s.record id = some r ∧ r.requester = h ∧ r.frame = f ∧ r.targets.get k = some .notice ∧
    ¬ (r.purpose = .free ∧ k = h ∧ r.othersDrained h = false)

theorem State.upgradeRecordsOf_eq (s : State) (h : HostId) :
    s.upgradeRecordsOf h = (List.range Config.recallCount).foldl (State.upgradeOf h) s := rfl

theorem State.upgradeOf_of_other {id : Nat} (hn : ∀ r, s.record id = some r → r.requester ≠ h) :
    s.upgradeOf h id = s := by
  unfold State.upgradeOf
  split
  · next r hr => exact if_neg (hn r hr)
  · rfl

/-- What an upgrade makes of the state: a closing of every target, and the record FORCED. -/
theorem State.upgradeOf_of_own {id : Nat} {r : RecallRecord} (hr : s.record id = some r) (hown : r.requester = h) :
    s.upgradeOf h id = s.moveRecord id r { r.close (fun _ => true) with forced := true } := by
  simp only [State.upgradeOf, hr, if_pos hown, State.upgradeRecord, RecallRecord.close_forced]

theorem State.upgradeOf_record (s : State) (h : HostId) (id j : Nat) :
    (s.upgradeOf h id).record j = if j = id then (s.record id).map (·.upgradedFor h) else s.record j := by
  by_cases own : ∃ r, s.record id = some r ∧ r.requester = h
  · obtain ⟨r, hr, hown⟩ := own
    rw [State.upgradeOf_of_own hr hown, State.moveRecord_record, hr, Option.map_some, RecallRecord.upgradedFor,
      if_pos hown, RecallRecord.close_all]
  · have other : ∀ r, s.record id = some r → r.requester ≠ h := fun r hr hown => own ⟨r, hr, hown⟩
    rw [State.upgradeOf_of_other other]
    split
    · next hj =>
      rw [hj]
      cases hr : s.record id with
      | none => rfl
      | some r => rw [Option.map_some, RecallRecord.upgradedFor, if_neg (other r hr)]
    · rfl

theorem State.upgradeOf_parts (s : State) (h : HostId) (id : Nat) : ∃ frames recalls checks,
    s.upgradeOf h id = { s with frames := frames, recalls := recalls, drainChecks := checks } := by
  by_cases own : ∃ r, s.record id = some r ∧ r.requester = h
  · obtain ⟨r, hr, hown⟩ := own
    rw [State.upgradeOf_of_own hr hown]
    exact ⟨_, _, _, State.moveRecord_eq _ _ _ _⟩
  · rw [State.upgradeOf_of_other fun r hr hown => own ⟨r, hr, hown⟩]
    exact ⟨_, _, _, rfl⟩

theorem State.upgradeOf_frame (s : State) (h : HostId) (id f : Nat) :
    (s.upgradeOf h id).frame f = { s.frame f with closing := ((s.upgradeOf h id).frame f).closing } := by
  by_cases own : ∃ r, s.record id = some r ∧ r.requester = h
  · obtain ⟨r, hr, hown⟩ := own
    rw [State.upgradeOf_of_own hr hown, State.moveRecord_frame]
    split <;> rfl
  · rw [State.upgradeOf_of_other fun r hr hown => own ⟨r, hr, hown⟩]

theorem State.upgradeOf_closing (s : State) (h : HostId) (id f : Nat) (k : HostId) :
    ((s.upgradeOf h id).frame f).closing.get k = true ↔
      (s.frame f).closing.get k = true ∨ s.Upgrades h id k f := by
  by_cases own : ∃ r, s.record id = some r ∧ r.requester = h
  · obtain ⟨r, hr, hown⟩ := own
    have moved : (s.upgradeOf h id).frame f = (s.moveRecord id r (r.close (fun _ => true))).frame f := by
      rw [State.upgradeOf_of_own hr hown, State.moveRecord_frame, State.moveRecord_frame]
    have upgrades : s.Upgrades h id k f ↔ r.frame = f ∧ r.targets.get k = some .notice := by
      simp [State.Upgrades, hr, hown]
    rw [moved, State.close_frame, upgrades]
    simp only [RecallRecord.close_all_fresh_iff]
    by_cases hf : f = r.frame
    · simp [hf]
    · simp [hf, Ne.symm hf]
  · rw [State.upgradeOf_of_other fun r hr hown => own ⟨r, hr, hown⟩, or_iff_left]
    rintro ⟨r, hr, hown, -⟩
    exact own ⟨r, hr, hown⟩

theorem State.upgradeOf_mem_drainChecks (s : State) (h : HostId) (id : Nat) (k : HostId) (f : Nat) :
    (k, f) ∈ (s.upgradeOf h id).drainChecks ↔ (k, f) ∈ s.drainChecks ∨ s.UpgradeChecks h id k f := by
  by_cases own : ∃ r, s.record id = some r ∧ r.requester = h
  · obtain ⟨r, hr, hown⟩ := own
    have moved : (s.upgradeOf h id).drainChecks = (s.moveRecord id r (r.close (fun _ => true))).drainChecks := by
      rw [State.upgradeOf_of_own hr hown]
      rfl
    have checks : s.UpgradeChecks h id k f ↔ r.frame = f ∧ r.targets.get k = some .notice ∧
        ¬ (r.purpose = .free ∧ k = h ∧ r.othersDrained h = false) := by
      simp [State.UpgradeChecks, hr, hown]
    rw [moved, State.close_mem_drainChecks, checks, ← and_assoc (c := ¬ _), RecallRecord.close_all_fresh_iff, hown,
      eq_comm (a := f), eq_comm (a := k)]
    refine or_congr_right (and_congr_right fun _ => and_congr_right fun _ => not_congr (and_congr_right fun _ => ?_))
    exact and_congr_right fun hk => by rw [hk]
  · rw [State.upgradeOf_of_other fun r hr hown => own ⟨r, hr, hown⟩, or_iff_left]
    rintro ⟨r, hr, hown, -⟩
    exact own ⟨r, hr, hown⟩

section
variable {l : List Nat}

theorem State.upgrades_parts (s : State) (h : HostId) (l : List Nat) : ∃ frames recalls checks,
    l.foldl (State.upgradeOf h) s = { s with frames := frames, recalls := recalls, drainChecks := checks } := by
  induction l generalizing s with
  | nil => exact ⟨_, _, _, rfl⟩
  | cons id l ih =>
    obtain ⟨_, _, _, step⟩ := s.upgradeOf_parts h id
    obtain ⟨_, _, _, rest⟩ := ih (s.upgradeOf h id)
    rw [List.foldl_cons, rest, step]
    exact ⟨_, _, _, rfl⟩

/-- The records that remain to be upgraded are as they were. -/
theorem State.upgradeOf_record_of_mem {id j : Nat} (hn : (id :: l).Nodup) (hj : j ∈ l) :
    (s.upgradeOf h id).record j = s.record j := by
  rw [State.upgradeOf_record, if_neg]
  rintro rfl
  exact (List.nodup_cons.mp hn).1 hj

theorem State.upgrades_record (hn : l.Nodup) (j : Nat) :
    (l.foldl (State.upgradeOf h) s).record j =
      if j ∈ l then (s.record j).map (·.upgradedFor h) else s.record j := by
  induction l generalizing s with
  | nil => rfl
  | cons id l ih =>
    obtain ⟨hid, hl⟩ := List.nodup_cons.mp hn
    rw [List.foldl_cons, ih hl]
    by_cases hj : j ∈ l
    · rw [if_pos hj, if_pos (List.mem_cons_of_mem id hj), State.upgradeOf_record_of_mem hn hj]
    · rw [if_neg hj, State.upgradeOf_record]
      by_cases hji : j = id <;> simp [hj, hji]

theorem State.upgrades_frame (s : State) (h : HostId) (l : List Nat) (f : Nat) :
    (l.foldl (State.upgradeOf h) s).frame f =
      { s.frame f with closing := ((l.foldl (State.upgradeOf h) s).frame f).closing } := by
  induction l generalizing s with
  | nil => rfl
  | cons id l ih =>
    rw [List.foldl_cons, ih, s.upgradeOf_frame h id f]

theorem State.upgrades_closing (hn : l.Nodup) (f : Nat) (k : HostId) :
    ((l.foldl (State.upgradeOf h) s).frame f).closing.get k = true ↔
      (s.frame f).closing.get k = true ∨ ∃ id ∈ l, s.Upgrades h id k f := by
  induction l generalizing s with
  | nil => simp
  | cons id l ih =>
    have later : (∃ j ∈ l, (s.upgradeOf h id).Upgrades h j k f) ↔ ∃ j ∈ l, s.Upgrades h j k f := by
      refine exists_congr fun j => and_congr_right fun hj => ?_
      rw [State.Upgrades, State.upgradeOf_record_of_mem hn hj, State.Upgrades]
    rw [List.foldl_cons, ih (List.nodup_cons.mp hn).2, later, State.upgradeOf_closing]
    simp only [List.mem_cons, exists_eq_or_imp, or_assoc]

theorem State.upgrades_mem_drainChecks (hn : l.Nodup) (k : HostId) (f : Nat) :
    (k, f) ∈ (l.foldl (State.upgradeOf h) s).drainChecks ↔
      (k, f) ∈ s.drainChecks ∨ ∃ id ∈ l, s.UpgradeChecks h id k f := by
  induction l generalizing s with
  | nil => simp
  | cons id l ih =>
    have later : (∃ j ∈ l, (s.upgradeOf h id).UpgradeChecks h j k f) ↔ ∃ j ∈ l, s.UpgradeChecks h j k f := by
      refine exists_congr fun j => and_congr_right fun hj => ?_
      rw [State.UpgradeChecks, State.upgradeOf_record_of_mem hn hj, State.UpgradeChecks]
    rw [List.foldl_cons, ih (List.nodup_cons.mp hn).2, later, State.upgradeOf_mem_drainChecks]
    simp only [List.mem_cons, exists_eq_or_imp, or_assoc]

end

/-! ### The service of the wait list -/

/-- What the service of the Allocation Wait List leaves as it was. -/
structure State.Serves (s t : State) : Prop where
  parts : t = { s with
    ports := t.ports, frames := t.frames, waitList := t.waitList, waiting := t.waiting, owned := t.owned
    freeList := t.freeList }
  port : ∀ k, (s.port k).portState ≠ .member → t.port k = s.port k
  waitList : ∀ e ∈ t.waitList, e ∈ s.waitList
  waiting : ∀ k, s.waiting.get k = 0 → t.waiting.get k = 0
  freeList : ∀ f ∈ t.freeList, f ∈ s.freeList
  frame : ∀ f, f ∉ s.freeList → t.frame f = s.frame f

namespace State.Serves

theorem refl (s : State) : s.Serves s :=
  ⟨rfl, fun _ _ => rfl, fun _ he => he, fun _ hk => hk, fun _ hf => hf, fun _ _ => rfl⟩

theorem trans {s t u : State} (hst : s.Serves t) (htu : t.Serves u) : s.Serves u where
  parts := by
    rw [htu.parts, hst.parts]
  port k hk := by
    have same := hst.port k hk
    exact (htu.port k (same ▸ hk)).trans same
  waitList e he := hst.waitList e (htu.waitList e he)
  waiting k hk := htu.waiting k (hst.waiting k hk)
  freeList f hf := hst.freeList f (htu.freeList f hf)
  frame f hf := (htu.frame f fun x => hf (hst.freeList f x)).trans (hst.frame f hf)

section
variable {s t : State} (hst : s.Serves t)
include hst

theorem unit (k : HostId) : t.unit k = s.unit k := by
  rw [hst.parts]
  rfl

theorem record (id : Nat) : t.record id = s.record id := by
  rw [hst.parts]
  rfl

theorem offerSlot (i : Nat) : t.offerSlot i = s.offerSlot i := by
  rw [hst.parts]
  rfl

theorem departures : t.departures = s.departures := by rw [hst.parts]

theorem cmdPointer : t.cmdPointer = s.cmdPointer := by rw [hst.parts]

end

/-- The service of the head of the list. -/
theorem head {s : State} {e : WaitEntry} {rest : List WaitEntry} (hw : s.waitList = e :: rest) :
    s.Serves (({ s with waitList := rest, waiting := s.waiting.set e.host 0 } : State).allocService e.host e.tag e.count
      e.label e.inheritFlag) := by
  have frame := State.allocService_frame ({ s with waitList := rest, waiting := s.waiting.set e.host 0 } : State) e.host
    e.label e.inheritFlag e.tag e.count
  obtain ⟨frames, served⟩ : ∃ frames, ({ s with waitList := rest, waiting := s.waiting.set e.host 0 } : State).allocService
      e.host e.tag e.count e.label e.inheritFlag =
        { ({ s with waitList := rest, waiting := s.waiting.set e.host 0 } : State).setPort e.host
            ((s.port e.host).postCompletion
              (.completion e.tag codeAlloc .ok (.frames (s.freeList.take e.count)))) with
          freeList := s.freeList.drop e.count
          owned := s.owned.set e.host (s.owned.get e.host + e.count)
          frames := frames } := ⟨_, State.allocService_eq _ _ _ _ _ _⟩
  refine ⟨?_, fun k hk => ?_, fun x hx => ?_, fun k hk => ?_, fun f hf => ?_, fun f hf => ?_⟩
  · rw [served]
    rfl
  · rw [served]
    refine (State.setPort_port s e.host _ k).trans ?_
    split
    · next hh =>
      subst hh
      exact if_neg fun x => hk x.1
    · rfl
  · rw [served] at hx
    rw [hw]
    exact List.mem_cons_of_mem e hx
  · rw [served]
    show (s.waiting.set e.host 0).get k = 0
    rw [PerHost.get_set]
    split
    · rfl
    · exact hk
  · rw [served] at hf
    exact List.mem_of_mem_drop hf
  · exact (frame f).trans (if_neg fun x => hf (List.mem_of_mem_take x))

theorem serveWaitList (s : State) : s.Serves s.serveWaitList := by
  generalize hl : s.waitList = l
  induction l generalizing s with
  | nil =>
    rw [State.serveWaitList_of_nil hl]
    exact refl s
  | cons e rest ih =>
    by_cases fits : e.count ≤ s.freeList.length
    · rw [State.serveWaitList_of_fits hl fits]
      refine (head hl).trans (ih _ ?_)
      rw [State.allocService_eq]
      rfl
    · rw [State.serveWaitList_of_short hl (Nat.not_le.mp fits)]
      exact refl s

end State.Serves

end Sys2Proof.Machine
end

section
/-! SUPPORT. The start of a departure, by LEAVE or by the loss of a member's link (R30, R58, R84, R86, R91, R140, R147,
R148). -/

namespace Sys2Proof.Machine

set_option Elab.async false

variable {s : State} {h : HostId} {cause : Cause}

/-! ### The host's own part -/

/-- What the host's own part of a departure's start has made of state `s`: its port, unit and waiting entry cleared, and its
departure record entered. -/
structure State.LeftBy (s w : State) (h : HostId) (cause : Cause) : Prop where
  port : w.port h =
    { s.port h with
      portState := .leaving, linkUp := (w.port h).linkUp, queue := [], events := [], reserved := 0, noticeLost := false
      faults := [], eventIe := false, faultIe := false, hirq := false }
  otherPort : ∀ k, k ≠ h → w.port k = s.port k
  unit : w.unit h = { s.unit h with windows := [], slots := [] }
  otherUnit : ∀ k, k ≠ h → w.unit k = s.unit k
  parts : w = { s with
    cmdPointer := w.cmdPointer, ports := w.ports, units := w.units
    departures := s.departures.set h (some ⟨cause, .draining⟩)
    waitList := s.waitList.filter (fun e => e.host ≠ h), waiting := s.waiting.set h 0 }

theorem State.departing_leftBy (s : State) (h : HostId) (linkUp : Bool) (cause : Cause) :
    s.LeftBy ((s.departing h linkUp cause).removeWaiting h) h cause where
  port := by
    have port : ((s.departing h linkUp cause).removeWaiting h).port h =
        { (s.port h).startLeaving with linkUp := linkUp } := (State.setPort_port s h _ h).trans (if_pos rfl)
    rw [port]
    rfl
  otherPort k hk := (State.setPort_port s h _ k).trans (if_neg hk)
  unit := (State.setUnit_unit _ h _ h).trans (if_pos rfl)
  otherUnit k hk := (State.setUnit_unit _ h _ k).trans (if_neg hk)
  parts := by
    simp only [ne_eq, decide_not]
    rfl

theorem State.departing_linkUp (s : State) (h : HostId) (linkUp : Bool) (cause : Cause) :
    (((s.departing h linkUp cause).removeWaiting h).port h).linkUp = linkUp := by
  have port : ((s.departing h linkUp cause).removeWaiting h).port h =
      { (s.port h).startLeaving with linkUp := linkUp } := (State.setPort_port s h _ h).trans (if_pos rfl)
  rw [port]

/-- The taking of the LEAVE does not show: the host's queue and reservations are cleared. -/
theorem State.LeftBy.of_taking {w : State} (hw : (s.beginTaking h).LeftBy w h cause) : s.LeftBy w h cause where
  port := by
    have port := hw.port
    rw [State.beginTaking_port, if_pos rfl] at port
    exact port
  otherPort k hk := by
    rw [hw.otherPort k hk, State.beginTaking_port, if_neg hk]
  unit := hw.unit
  otherUnit := hw.otherUnit
  parts := hw.parts

namespace State.LeftBy

variable {w : State} (hw : s.LeftBy w h cause)
include hw

theorem not_member : (w.port h).portState ≠ .member := by
  rw [hw.port]
  simp

theorem offerSlot (i : Nat) : w.offerSlot i = s.offerSlot i := by
  rw [hw.parts]
  rfl

theorem record (id : Nat) : w.record id = s.record id := by
  rw [hw.parts]
  rfl

theorem frame (f : Nat) : w.frame f = s.frame f := by
  rw [hw.parts]
  rfl

end State.LeftBy

/-! ### Offers and records -/

/-- The offers of a departing host closed and its records upgraded, before the wait list is served (R84, R58). -/
def State.closedFor (w : State) (h : HostId) : State := (w.closeOffersOf h).upgradeRecordsOf h

variable (w : State)

theorem State.closeOffersOf_record (h : HostId) (id : Nat) : (w.closeOffersOf h).record id = w.record id := by
  obtain ⟨_, _, _, parts⟩ := w.closeOffers_parts h (w.slotsOf h)
  rw [State.closeOffersOf_eq, parts]
  rfl

theorem State.closedFor_parts (h : HostId) : ∃ ports frames offers recalls checks,
    w.closedFor h = { w with
      ports := ports, frames := frames, offers := offers, recalls := recalls, drainChecks := checks } := by
  obtain ⟨ports, frames, offers, closed⟩ := w.closeOffers_parts h (w.slotsOf h)
  obtain ⟨frames, recalls, checks, upgraded⟩ :=
    (w.closeOffersOf h).upgrades_parts h (List.range Config.recallCount)
  rw [State.closedFor, State.upgradeRecordsOf_eq, upgraded, State.closeOffersOf_eq, closed]
  exact ⟨_, _, _, _, _, rfl⟩

theorem State.closedFor_port (h k : HostId) :
    (w.closedFor h).port k = (w.slotsOf h).foldl (w.partyTold h k) (w.port k) := by
  obtain ⟨frames, recalls, checks, upgraded⟩ :=
    (w.closeOffersOf h).upgrades_parts h (List.range Config.recallCount)
  rw [State.closedFor, State.upgradeRecordsOf_eq, upgraded, ← State.closeOffers_port State.slotsOf_nodup,
    ← State.closeOffersOf_eq]
  rfl

theorem State.closedFor_unit (h k : HostId) : (w.closedFor h).unit k = w.unit k := by
  obtain ⟨_, _, _, _, _, parts⟩ := w.closedFor_parts h
  rw [parts]
  rfl

/-- A host that is not MEMBER is told nothing. -/
theorem State.partyTold_of_not_member {h k : HostId} {p : HostPort} (hp : p.portState ≠ .member) (l : List Nat) :
    l.foldl (w.partyTold h k) p = p := by
  induction l with
  | nil => rfl
  | cons i l ih =>
    have told : w.partyTold h k p i = p := by
      unfold State.partyTold
      cases (w.offerSlot i).offer with
      | none => rfl
      | some o =>
        dsimp only
        rw [HostPort.postNotice_of_not_member _ hp, ite_self]
    rw [List.foldl_cons, told, ih]

theorem State.closedFor_offerSlot (h : HostId) (i : Nat) :
    (w.closedFor h).offerSlot i = if i ∈ w.slotsOf h then w.closedSlot i else w.offerSlot i := by
  obtain ⟨frames, recalls, checks, upgraded⟩ :=
    (w.closeOffersOf h).upgrades_parts h (List.range Config.recallCount)
  rw [State.closedFor, State.upgradeRecordsOf_eq, upgraded, ← State.closeOffers_offerSlot State.slotsOf_nodup,
    ← State.closeOffersOf_eq]
  rfl

theorem State.closedFor_record (h : HostId) (id : Nat) :
    (w.closedFor h).record id =
      if id ∈ List.range Config.recallCount then (w.record id).map (·.upgradedFor h) else w.record id := by
  rw [State.closedFor, State.upgradeRecordsOf_eq, State.upgrades_record List.nodup_range, State.closeOffersOf_record]

/-- A frame keeps everything but its offer field and closing flags. -/
theorem State.closedFor_frame (h : HostId) (f : Nat) :
    (w.closedFor h).frame f =
      { w.frame f with offer := ((w.closedFor h).frame f).offer, closing := ((w.closedFor h).frame f).closing } := by
  have upgraded := (w.closeOffersOf h).upgrades_frame h (List.range Config.recallCount) f
  have closed : (w.closeOffersOf h).frame f = { w.frame f with offer := ((w.closeOffersOf h).frame f).offer } := by
    rw [State.closeOffersOf_eq, State.closeOffers_frame State.slotsOf_nodup]
    split <;> rfl
  rw [closed] at upgraded
  rw [State.closedFor, State.upgradeRecordsOf_eq, upgraded]

theorem State.closedFor_offer (h : HostId) (f : Nat) :
    ((w.closedFor h).frame f).offer =
      if ∃ i ∈ w.slotsOf h, ∃ o, (w.offerSlot i).offer = some o ∧ o.frame = f then none else (w.frame f).offer := by
  have upgraded := (w.closeOffersOf h).upgrades_frame h (List.range Config.recallCount) f
  rw [State.closedFor, State.upgradeRecordsOf_eq, upgraded, State.closeOffersOf_eq,
    State.closeOffers_frame State.slotsOf_nodup]
  split <;> rfl

theorem State.closedFor_closing (h : HostId) (f : Nat) (k : HostId) :
    ((w.closedFor h).frame f).closing.get k = true ↔
      (w.frame f).closing.get k = true ∨ ∃ id < Config.recallCount, w.Upgrades h id k f := by
  have closed : ((w.closeOffersOf h).frame f).closing = (w.frame f).closing := by
    rw [State.closeOffersOf_eq, State.closeOffers_frame State.slotsOf_nodup]
    split <;> rfl
  rw [State.closedFor, State.upgradeRecordsOf_eq, State.upgrades_closing List.nodup_range, closed]
  simp only [List.mem_range, State.Upgrades, State.closeOffersOf_record]

theorem State.closedFor_mem_drainChecks (h k : HostId) (f : Nat) :
    (k, f) ∈ (w.closedFor h).drainChecks ↔
      (k, f) ∈ w.drainChecks ∨ ∃ id < Config.recallCount, w.UpgradeChecks h id k f := by
  have closed : (w.closeOffersOf h).drainChecks = w.drainChecks := by
    obtain ⟨_, _, _, parts⟩ := w.closeOffers_parts h (w.slotsOf h)
    rw [State.closeOffersOf_eq, parts]
  rw [State.closedFor, State.upgradeRecordsOf_eq, State.upgrades_mem_drainChecks List.nodup_range, closed]
  simp only [List.mem_range, State.UpgradeChecks, State.closeOffersOf_record]

/-! ### The departure started -/

variable {w} {t : State}

namespace State.LeftBy

variable (hw : s.LeftBy w h cause)
include hw

theorem closedFor_eq : w.closedFor h = { s with
    cmdPointer := (w.closedFor h).cmdPointer, ports := (w.closedFor h).ports, units := (w.closedFor h).units
    frames := (w.closedFor h).frames, recalls := (w.closedFor h).recalls, offers := (w.closedFor h).offers
    drainChecks := (w.closedFor h).drainChecks
    departures := s.departures.set h (some ⟨cause, .draining⟩)
    waitList := s.waitList.filter (fun e => e.host ≠ h), waiting := s.waiting.set h 0 } := by
  obtain ⟨_, _, _, _, _, parts⟩ := w.closedFor_parts h
  rw [parts, hw.parts]

theorem closedFor_port_self : (w.closedFor h).port h = w.port h := by
  rw [State.closedFor_port, State.partyTold_of_not_member w hw.not_member]

theorem mem_slotsOf (i : Nat) :
    i ∈ w.slotsOf h ↔ i < Config.offerCount ∧ ∃ o, (s.offerSlot i).offer = some o ∧ (o.giver = h ∨ o.recipient = h) := by
  rw [State.mem_slotsOf, hw.offerSlot]

theorem slotsOf_pairwise : (w.slotsOf h).Pairwise (fun i j => ∀ a b, (s.offerSlot i).offer = some a →
    (s.offerSlot j).offer = some b → a.frame ≤ b.frame) := by
  refine (sortRanked_pairwise w.offerFrame _).imp fun {i j} hij a b ha hb => ?_
  have first : w.offerFrame i = a.frame := by rw [State.offerFrame, hw.offerSlot, ha]
  have second : w.offerFrame j = b.frame := by rw [State.offerFrame, hw.offerSlot, hb]
  rwa [first, second] at hij

/-- The slots of the departing host's offers are emptied and no other (R84). -/
theorem offerSlot_closed {i : Nat} (hi : i < Config.offerCount) :
    (w.closedFor h).offerSlot i =
      match (s.offerSlot i).offer with
      | some o => if o.giver = h ∨ o.recipient = h then ⟨(s.offerSlot i).serial + 1, none⟩ else s.offerSlot i
      | none => s.offerSlot i := by
  have mem := hw.mem_slotsOf i
  rw [State.closedFor_offerSlot, State.closedSlot, hw.offerSlot]
  cases ho : (s.offerSlot i).offer with
  | none => simp
  | some o =>
    have party : i ∈ w.slotsOf h ↔ o.giver = h ∨ o.recipient = h := by
      rw [mem, ho]
      simp [hi]
    simp only [party]

/-- The host's own records are upgraded and no other (R58). -/
theorem record_upgraded {id : Nat} {r : RecallRecord} (hid : id < Config.recallCount) (hr : s.record id = some r) :
    (w.closedFor h).record id = some (
      if r.requester = h then
        { r with
          forced := true
          deadline := none
          targets := PerHost.make (fun k =>
            if r.targets.get k = some .notice then some .closing else r.targets.get k) }
      else r) := by
  rw [State.closedFor_record, if_pos (List.mem_range.mpr hid), hw.record, hr]
  rfl

theorem frame_closed (f : Nat) :
    (w.closedFor h).frame f =
      { s.frame f with offer := ((w.closedFor h).frame f).offer, closing := ((w.closedFor h).frame f).closing } := by
  rw [← hw.frame]
  exact w.closedFor_frame h f

theorem offer_closed (f : Nat) :
    ((∃ i o, i ∈ w.slotsOf h ∧ (s.offerSlot i).offer = some o ∧ o.frame = f) →
      ((w.closedFor h).frame f).offer = none) ∧
    ((∀ i o, i ∈ w.slotsOf h → (s.offerSlot i).offer = some o → o.frame ≠ f) →
      ((w.closedFor h).frame f).offer = (s.frame f).offer) := by
  rw [State.closedFor_offer, hw.frame]
  simp only [hw.offerSlot]
  refine ⟨?_, fun hn => if_neg ?_⟩
  · rintro ⟨i, o, hi, ho, hf⟩
    exact if_pos ⟨i, hi, o, ho, hf⟩
  · rintro ⟨i, hi, o, ho, hf⟩
    exact hn i o hi ho hf

theorem closing_closed (f : Nat) (k : HostId) :
    ((w.closedFor h).frame f).closing.get k = true ↔ (s.frame f).closing.get k = true ∨
      ∃ id r, id < Config.recallCount ∧ s.record id = some r ∧ r.requester = h ∧ r.frame = f ∧
        r.targets.get k = some .notice := by
  rw [State.closedFor_closing, hw.frame]
  simp only [State.Upgrades, hw.record, exists_and_left]

theorem drainChecks_closed (k : HostId) (f : Nat) :
    (k, f) ∈ (w.closedFor h).drainChecks ↔ (k, f) ∈ s.drainChecks ∨
      ∃ id r, id < Config.recallCount ∧ s.record id = some r ∧ r.requester = h ∧ r.frame = f ∧
        r.targets.get k = some .notice ∧ ¬ (r.purpose = .free ∧ k = h ∧ r.othersDrained h = false) := by
  have checks : w.drainChecks = s.drainChecks := by rw [hw.parts]
  rw [State.closedFor_mem_drainChecks, checks]
  simp only [State.UpgradeChecks, hw.record, exists_and_left]

/-- The other party of each offer is told, in ascending order of the frame (R84, R131). -/
theorem port_told {k : HostId} (hk : k ≠ h) :
    (w.closedFor h).port k = (w.slotsOf h).foldl (s.partyTold h k) (s.port k) := by
  rw [State.closedFor_port, hw.otherPort k hk]
  refine List.foldl_ext _ _ _ fun p i _ => ?_
  rw [State.partyTold, hw.offerSlot, State.partyTold]

/-- The start of a departure from the state that the host's own part leaves, with the wait list served at its end. -/
theorem started (ht : t = if s.waitsAtHead h then (w.closedFor h).serveWaitList else w.closedFor h) :
    t.DepartureStarted s h cause ∧ t.cmdPointer = w.cmdPointer ∧ (t.port h).linkUp = (w.port h).linkUp := by
  have serves : (w.closedFor h).Serves t := by
    rw [ht]
    split
    · exact .serveWaitList _
    · exact .refl _
  have closed := hw.closedFor_eq
  have port : t.port h = w.port h := by
    rw [serves.port h, hw.closedFor_port_self]
    rw [hw.closedFor_port_self]
    exact hw.not_member
  have departures : (w.closedFor h).departures = s.departures.set h (some ⟨cause, .draining⟩) := by rw [closed]
  have waits : (w.closedFor h).waitList = s.waitList.filter (fun e => e.host ≠ h) := by rw [closed]
  have waiting : (w.closedFor h).waiting = s.waiting.set h 0 := by rw [closed]
  have free : (w.closedFor h).freeList = s.freeList := by rw [closed]
  have pointer : (w.closedFor h).cmdPointer = w.cmdPointer := by
    obtain ⟨_, _, _, _, _, parts⟩ := w.closedFor_parts h
    rw [parts]
  refine ⟨⟨?_, ?_, serves.departures.trans departures, fun e he => ?_, serves.waiting h ?_, fun i hi => ?_, fun id r hid hr => ?_,
    fun f _ hf => ?_, w.closedFor h, w.slotsOf h, ht, closed, State.slotsOf_nodup, hw.mem_slotsOf, hw.slotsOf_pairwise,
    fun k hk => hw.port_told hk, fun k hk => ?_, hw.frame_closed, hw.offer_closed, hw.closing_closed,
    hw.drainChecks_closed⟩, serves.cmdPointer.trans pointer, ?_⟩
  · rw [port]
    exact hw.port
  · rw [serves.unit, State.closedFor_unit]
    exact hw.unit
  · have listed := serves.waitList e he
    rw [waits] at listed
    simpa using (List.mem_filter.mp listed).2
  · rw [waiting, PerHost.get_set_same]
  · rw [serves.offerSlot]
    exact hw.offerSlot_closed hi
  · rw [serves.record]
    exact hw.record_upgraded hid hr
  · rw [← free] at hf
    rw [serves.frame f hf, hw.frame_closed]
    exact ⟨‹_›, rfl, rfl⟩
  · rw [State.closedFor_unit, hw.otherUnit k hk]
  · rw [port]

end State.LeftBy

/-- The start of a departure, of a port whose link may just have gone down (R147). -/
theorem State.startDeparture_of_departing (s : State) (h : HostId) (cause : Cause) :
    s.startDeparture h cause =
      if s.waitsAtHead h then (((s.departing h (s.port h).linkUp cause).removeWaiting h).closedFor h).serveWaitList
      else ((s.departing h (s.port h).linkUp cause).removeWaiting h).closedFor h := rfl

theorem State.startDeparture_of_link_lost (s : State) (h : HostId) :
    (s.updPort h (fun p => { p with linkUp := false })).startDeparture h .link =
      if s.waitsAtHead h then (((s.departing h false .link).removeWaiting h).closedFor h).serveWaitList
      else ((s.departing h false .link).removeWaiting h).closedFor h := by
  have whole : ((s.updPort h (fun p => { p with linkUp := false })).updPort h (·.startLeaving)) =
      s.setPort h { (s.port h).startLeaving with linkUp := false } := by
    rw [State.updPort_eq, State.updPort_eq, State.setPort_setPort, State.setPort_port, if_pos rfl]
    rfl
  unfold State.startDeparture State.closedFor State.departing
  simp only [whole]
  rfl

/-- Settles O45. -/
theorem departureStarts : Obligations.DepartureStarts := by
  intro s h
  refine ⟨fun d ht => ?_, fun hm => ?_⟩
  · rw [exec_leave ht, leaveEffect, State.startDeparture_of_departing]
    have left := ((s.beginTaking h).departing_leftBy h ((s.beginTaking h).port h).linkUp (.leave d.tag)).of_taking
    obtain ⟨started, pointer, link⟩ := left.started rfl
    refine ⟨_, rfl, started, pointer, link.trans ?_⟩
    rw [State.departing_linkUp, State.beginTaking_port, if_pos rfl]
  · rw [exec_linkDown, hm]
    dsimp only
    rw [State.startDeparture_of_link_lost]
    have left := s.departing_leftBy h false .link
    obtain ⟨started, pointer, link⟩ := left.started rfl
    exact ⟨_, rfl, started, pointer, link.trans (s.departing_linkUp h false .link)⟩

end Sys2Proof.Machine
end

section
/-! SUPPORT. The end of a departure's drain phase: each frame's drain, the frames it leaves alone, and the run of the drains
over the frames in a free order (R49, R50, R69, R150, R154). -/

namespace Sys2Proof.Machine

set_option Elab.async false

variable {s : State} {h : HostId} {f g : Nat}

/-! ### What a drain can change -/

/-- `t` differs from `s` at most in the ports, the Frame Table, the Recall Table, the owned counts, the departure records, the
drain checks and the Scrub Queue. -/
def State.DrainOnly (s t : State) : Prop :=
  t = { s with
    ports := t.ports, frames := t.frames, recalls := t.recalls, owned := t.owned, departures := t.departures
    drainChecks := t.drainChecks, scrubQueue := t.scrubQueue, scrubPos := t.scrubPos }

namespace State.DrainOnly

theorem trans {s t u : State} (hst : s.DrainOnly t) (htu : t.DrainOnly u) : s.DrainOnly u := by
  unfold State.DrainOnly at *
  rw [htu, hst]

theorem completeRecord (s : State) (id : Nat) (r : RecallRecord) : s.DrainOnly (s.completeRecord id r) := by
  obtain ⟨frames, recalls, parts⟩ := s.unrecorded_parts id r.frame
  have removed : s.DrainOnly (s.unrecorded id r.frame) := by
    unfold State.DrainOnly
    rw [parts]
  have scrubbing : (s.unrecorded id r.frame).DrainOnly ((s.unrecorded id r.frame).enterScrubbing r.frame) := by
    unfold State.DrainOnly
    rw [State.enterScrubbing_eq]
  rw [State.completeRecord_eq]
  split
  · exact (removed.trans scrubbing).trans rfl
  · exact removed.trans rfl

theorem drainTarget (s : State) (id : Nat) (r : RecallRecord) (h : HostId) (quiet : Bool) :
    s.DrainOnly (s.drainTarget id r h quiet) := by
  have drained : s.DrainOnly (s.drainedTarget id r h quiet) := by
    unfold State.DrainOnly
    rw [State.drainedTarget_eq]
  rw [State.drainTarget_eq]
  split
  · exact drained.trans (completeRecord _ id _)
  · exact drained

theorem drainSwept (s : State) (h : HostId) (f : Nat) (o : HostId) : s.DrainOnly (s.drainSwept h f o) := by
  have swept : s.DrainOnly (s.sweptHost h f) := rfl
  have scrubbing : (s.sweptHost h f).DrainOnly ((s.sweptHost h f).enterScrubbing f) := by
    unfold State.DrainOnly
    rw [State.enterScrubbing_eq]
  rw [State.drainSwept_eq]
  split
  · exact (swept.trans scrubbing).trans rfl
  · exact swept

end State.DrainOnly

/-! ### The settling of one frame -/

theorem State.settleDeparting_of_recalled {id : Nat} {r : RecallRecord} (hid : s.recallOf f h = some id)
    (hr : s.record id = some r) :
    s.settleDeparting h f =
      if r.purpose = .free ∧ r.requester = h ∧ r.othersDrained h = false then s else s.drainTarget id r h true := by
  simp only [State.settleDeparting, hid, hr, RecallRecord.isOwnerTarget_iff, and_assoc]

theorem State.settleDeparting_of_unrecalled (hn : s.recallOf f h = none) :
    s.settleDeparting h f =
      (s.forcedFreeingOf f).elim s (fun o => if (s.frame f).closing.get h then s.drainSwept h f o else s) := by
  simp only [State.settleDeparting, hn]
  cases s.forcedFreeingOf f <;> rfl

/-- Everything the settling of a frame can do: nothing, the drain of the host's target, or the drain of its swept access. -/
theorem State.settleDeparting_cases (s : State) (h : HostId) (f : Nat) :
    s.settleDeparting h f = s ∨
    (∃ id r, s.recallOf f h = some id ∧ s.record id = some r ∧ r.frame = f ∧
      s.settleDeparting h f = s.drainTarget id r h true) ∨
    ∃ o d, s.recallOf f h = none ∧ s.departures.get o = some d ∧ d.phase = .sweeping f true ∧
      s.settleDeparting h f = s.drainSwept h f o := by
  cases hrecall : s.recallOf f h with
  | some id =>
    obtain ⟨-, r, hr, hframe, -⟩ := State.recallOf_some hrecall
    rw [State.settleDeparting_of_recalled hrecall hr]
    split
    · exact Or.inl rfl
    · exact Or.inr (Or.inl ⟨id, r, rfl, hr, hframe, rfl⟩)
  | none =>
    rw [State.settleDeparting_of_unrecalled hrecall]
    cases hforced : s.forcedFreeingOf f with
    | none => exact Or.inl rfl
    | some o =>
      obtain ⟨-, d, hd, phase⟩ := State.forcedFreeingOf_eq_some_iff.mp hforced
      rw [Option.elim_some]
      split
      · exact Or.inr (Or.inr ⟨o, d, rfl, hd, phase, rfl⟩)
      · exact Or.inl rfl

theorem State.settleDeparting_drainOnly (s : State) (h : HostId) (f : Nat) : s.DrainOnly (s.settleDeparting h f) := by
  rcases s.settleDeparting_cases h f with same | ⟨id, r, -, -, -, drained⟩ | ⟨o, d, -, -, -, swept⟩
  · rw [same]
    rfl
  · rw [drained]
    exact .drainTarget s id r h true
  · rw [swept]
    exact .drainSwept s h f o

/-- The host has no access to the frame, with its closing flag clear. -/
def FrameRecord.ClearOf (r : FrameRecord) (h : HostId) : Prop := r.access.get h = .none ∧ r.closing.get h = false

theorem FrameRecord.toScrubbing_clearOf (r : FrameRecord) (h : HostId) : r.toScrubbing.ClearOf h :=
  ⟨PerHost.get_all _ h, PerHost.get_all _ h⟩

/-! ### The drain of a target -/

section
variable (s) (id : Nat) (r : RecallRecord) (h : HostId) (quiet : Bool)

theorem State.completeRecord_record (j : Nat) :
    (s.completeRecord id r).record j = if j = id then none else s.record j := by
  have removed := s.unrecorded_record id r.frame j
  rw [State.completeRecord_eq, State.complete_eq, State.setPort_record, ← removed]
  split
  · rw [State.enterScrubbing_eq]
    rfl
  · rfl

theorem State.completeRecord_frame (f : Nat) :
    (s.completeRecord id r).frame f =
      (if r.purpose = .free then (s.unrecorded id r.frame).enterScrubbing r.frame else s.unrecorded id r.frame).frame f := by
  rw [State.completeRecord_eq, State.complete_eq, State.setPort_frame]

theorem State.completeRecord_frame_of_ne {f : Nat} (hf : f ≠ r.frame) : (s.completeRecord id r).frame f = s.frame f := by
  have removed := s.unrecorded_frame id r.frame f
  rw [if_neg hf] at removed
  rw [State.completeRecord_frame, ← removed]
  split
  · rw [State.enterScrubbing_frame, if_neg fun x => hf x.1]
  · rfl

theorem State.completeRecord_clearOf {k : HostId} (hk : (s.frame r.frame).ClearOf k) :
    ((s.completeRecord id r).frame r.frame).ClearOf k := by
  have removed : ((s.unrecorded id r.frame).frame r.frame).ClearOf k := by
    rw [State.unrecorded_frame, if_pos rfl]
    exact hk
  rw [State.completeRecord_frame]
  split
  · rw [State.enterScrubbing_frame]
    split
    · exact FrameRecord.toScrubbing_clearOf _ k
    · exact removed
  · exact removed

theorem State.drainTarget_record (j : Nat) :
    (s.drainTarget id r h quiet).record j =
      if j = id then (if (r.drained h).allDrained then none else some (r.drained h)) else s.record j := by
  rw [State.drainTarget_eq]
  split
  · rw [State.completeRecord_record, State.drainedTarget_record]
    split <;> rfl
  · exact s.drainedTarget_record id r h quiet j

theorem State.drainTarget_frame_of_ne {f : Nat} (hf : f ≠ r.frame) :
    (s.drainTarget id r h quiet).frame f = s.frame f := by
  have drained : (s.drainedTarget id r h quiet).frame f = s.frame f := by
    rw [State.drainedTarget_frame, if_neg hf]
  rw [State.drainTarget_eq]
  split
  · rw [State.completeRecord_frame_of_ne _ _ _ (by rwa [RecallRecord.drained_frame]), drained]
  · exact drained

theorem State.drainTarget_clearOf : ((s.drainTarget id r h quiet).frame r.frame).ClearOf h := by
  have drained : ((s.drainedTarget id r h quiet).frame r.frame).ClearOf h := by
    rw [State.drainedTarget_frame, if_pos rfl]
    exact ⟨PerHost.get_set_same _ h _, by simp⟩
  rw [State.drainTarget_eq]
  split
  · have complete := State.completeRecord_clearOf (s.drainedTarget id r h quiet) id (r.drained h) (k := h)
    rw [RecallRecord.drained_frame] at complete
    exact complete drained
  · exact drained

end

/-! ### The drain of a swept access -/

section
variable (s) (h : HostId) (f : Nat) (o : HostId)

theorem State.sweptHost_frame (g : Nat) :
    (s.sweptHost h f).frame g =
      if g = f then
        { s.frame g with access := (s.frame g).access.set h .none, closing := (s.frame g).closing.set h false }
      else s.frame g := by
  rw [State.sweptHost, State.notify_eq, State.setPort_frame, State.updFrame_eq, State.setFrame_frame]
  split
  · next hg => rw [hg]
  · rfl

/-- What the drain of a swept access leaves of the frame: the access gone, or with the last of them the whole frame. -/
theorem State.drainSwept_frame (g : Nat) :
    (s.drainSwept h f o).frame g =
      if ((s.sweptHost h f).frame f).holders (fun k => decide (k = o)) = [] then
        ((s.sweptHost h f).enterScrubbing f).frame g
      else (s.sweptHost h f).frame g := by
  rw [State.drainSwept_eq]
  split <;> rfl

theorem State.drainSwept_frame_of_ne {g : Nat} (hg : g ≠ f) : (s.drainSwept h f o).frame g = s.frame g := by
  have scrubbed : ((s.sweptHost h f).enterScrubbing f).frame g = (s.sweptHost h f).frame g := by
    rw [State.enterScrubbing_frame, if_neg fun x => hg x.1]
  rw [State.drainSwept_frame, scrubbed, ite_self, State.sweptHost_frame, if_neg hg]

theorem State.drainSwept_clearOf : ((s.drainSwept h f o).frame f).ClearOf h := by
  have swept : ((s.sweptHost h f).frame f).ClearOf h := by
    rw [State.sweptHost_frame, if_pos rfl]
    exact ⟨PerHost.get_set_same _ h _, PerHost.get_set_same _ h _⟩
  rw [State.drainSwept_frame, State.enterScrubbing_frame]
  split
  · split
    · exact FrameRecord.toScrubbing_clearOf _ h
    · exact swept
  · exact swept

theorem State.drainSwept_record (id : Nat) : (s.drainSwept h f o).record id = s.record id := by
  have swept : (s.sweptHost h f).record id = s.record id := by
    rw [State.sweptHost, State.notify_eq, State.setPort_record, State.updFrame_eq, State.setFrame_record]
  have scrubbing : ((s.sweptHost h f).enterScrubbing f).record id = (s.sweptHost h f).record id := by
    rw [State.enterScrubbing_eq]
    rfl
  rw [State.drainSwept_eq]
  split
  · exact scrubbing.trans swept
  · exact swept

theorem State.drainSwept_departures :
    (s.drainSwept h f o).departures =
      if ((s.sweptHost h f).frame f).holders (fun k => decide (k = o)) = [] then
        s.departures.set o ((s.departures.get o).map (fun d => { d with phase := .sweeping f false }))
      else s.departures := by
  rw [State.drainSwept_eq]
  split <;> rfl

end

/-! ### The frames a settling leaves alone -/

/-- Nothing at frame `f` has changed: the frame, its records, and the sweeps that stand at it; and no record has come. -/
structure State.SameAt (s t : State) (f : Nat) : Prop where
  frame : t.frame f = s.frame f
  record : ∀ id r, r.frame = f → (t.record id = some r ↔ s.record id = some r)
  gone : ∀ id, s.record id = none → t.record id = none
  sweep : ∀ j d b, d.phase = .sweeping f b → (t.departures.get j = some d ↔ s.departures.get j = some d)

namespace State.SameAt

theorem refl (s : State) (f : Nat) : s.SameAt s f :=
  ⟨rfl, fun _ _ _ => Iff.rfl, fun _ hn => hn, fun _ _ _ _ => Iff.rfl⟩

theorem trans {s t u : State} {f : Nat} (hst : s.SameAt t f) (htu : t.SameAt u f) : s.SameAt u f where
  frame := htu.frame.trans hst.frame
  record id r hr := (htu.record id r hr).trans (hst.record id r hr)
  gone id hn := htu.gone id (hst.gone id hn)
  sweep j d b hd := (htu.sweep j d b hd).trans (hst.sweep j d b hd)

theorem recallOf {s t : State} {f : Nat} (hst : s.SameAt t f) (h : HostId) : t.recallOf f h = s.recallOf f h := by
  have same : t.recalls? f h = s.recalls? f h := by
    funext id
    rw [Bool.eq_iff_iff, State.recalls?_iff, State.recalls?_iff]
    exact exists_congr fun r => ⟨fun ⟨hr, hf, hu⟩ => ⟨(hst.record id r hf).mp hr, hf, hu⟩,
      fun ⟨hr, hf, hu⟩ => ⟨(hst.record id r hf).mpr hr, hf, hu⟩⟩
  rw [State.recallOf_eq_find, State.recallOf_eq_find, same]

theorem drainTarget {s : State} {id : Nat} {r : RecallRecord} (hr : s.record id = some r) (h : HostId) (quiet : Bool)
    {f : Nat} (hf : f ≠ r.frame) : s.SameAt (s.drainTarget id r h quiet) f where
  frame := s.drainTarget_frame_of_ne id r h quiet hf
  record j q hq := by
    rw [State.drainTarget_record]
    split
    · next hj =>
      subst hj
      refine iff_of_false (fun hnew => ?_) fun hold => ?_
      · split at hnew
        · cases hnew
        · cases hnew
          exact hf (hq.symm.trans (r.drained_frame h))
      · cases hr.symm.trans hold
        exact hf hq.symm
    · rfl
  gone j hn := by
    rw [State.drainTarget_record]
    split
    · next hj =>
      subst hj
      cases hr.symm.trans hn
    · exact hn
  sweep j d b _ := by rw [State.drainTarget_departures]

theorem drainSwept {s : State} {g : Nat} {o : HostId} {d : Departure} (hd : s.departures.get o = some d)
    (phase : d.phase = .sweeping g true) (h : HostId) {f : Nat} (hf : f ≠ g) : s.SameAt (s.drainSwept h g o) f where
  frame := s.drainSwept_frame_of_ne h g o hf
  record j q _ := by rw [State.drainSwept_record]
  gone j hn := (s.drainSwept_record h g o j).trans hn
  sweep j e b he := by
    rw [State.drainSwept_departures]
    split
    · rw [PerHost.get_set, hd]
      split
      · next hj =>
        subst hj
        refine iff_of_false (fun hnew => ?_) fun hold => ?_
        · cases hnew
          cases he
          exact hf rfl
        · cases hd.symm.trans hold
          cases phase.symm.trans he
          exact hf rfl
      · rfl
    · rfl

/-- The settling of one frame leaves every other alone. -/
theorem settle (s : State) (h : HostId) {f g : Nat} (hf : f ≠ g) : s.SameAt (s.settleDeparting h g) f := by
  rcases s.settleDeparting_cases h g with same | ⟨id, r, -, hr, hframe, drained⟩ | ⟨o, d, -, hd, phase, swept⟩
  · rw [same]
    exact refl s f
  · rw [drained]
    exact drainTarget hr h true (hframe ▸ hf)
  · rw [swept]
    exact drainSwept hd phase h hf

end State.SameAt

/-! ### The run of the settlings -/

/-- The frames of a list settled in its order (R150). -/
def State.settleAll (h : HostId) (s : State) (l : List Nat) : State := l.foldl (fun s f => s.settleDeparting h f) s

theorem State.settleAll_cons (g : Nat) (l : List Nat) :
    s.settleAll h (g :: l) = (s.settleDeparting h g).settleAll h l := rfl

theorem State.settleAll_drainOnly (s : State) (h : HostId) (l : List Nat) : s.DrainOnly (s.settleAll h l) := by
  induction l generalizing s with
  | nil => rfl
  | cons g l ih => exact (s.settleDeparting_drainOnly h g).trans (ih _)

theorem State.settleAll_sameAt (s : State) {l : List Nat} (hf : f ∉ l) : s.SameAt (s.settleAll h l) f := by
  induction l generalizing s with
  | nil => exact .refl s f
  | cons g l ih =>
    obtain ⟨here, later⟩ : f ≠ g ∧ f ∉ l := by simpa using hf
    exact (State.SameAt.settle s h here).trans (ih _ later)

/-- A frame of the list is settled once, in a state that is the first one at it, and left alone afterwards. -/
theorem State.settleAll_at (s : State) {l : List Nat} (hn : l.Nodup) (hf : f ∈ l) :
    ∃ v : State, s.SameAt v f ∧ (v.settleDeparting h f).SameAt (s.settleAll h l) f := by
  induction l generalizing s with
  | nil => cases hf
  | cons g l ih =>
    obtain ⟨hg, hl⟩ := List.nodup_cons.mp hn
    rcases List.mem_cons.mp hf with rfl | hf
    · exact ⟨s, .refl s f, State.settleAll_sameAt _ hg⟩
    · obtain ⟨v, before, after⟩ := ih (s.settleDeparting h g) hl hf
      have apart : f ≠ g := fun x => hg (x ▸ hf)
      exact ⟨v, (State.SameAt.settle s h apart).trans before, after⟩

/-! ### Records after the run -/

section
variable {l : List Nat}

/-- R45: the record found for a frame and host is the one that has the host as a target not yet DRAINED. -/
theorem State.OneRecallEach.recallOf_eq (one : s.OneRecallEach) {id : Nat} {r : RecallRecord} (hlt : id < 16)
    (hr : s.record id = some r) (hu : r.undrained h = true) : s.recallOf r.frame h = some id := by
  cases hrecall : s.recallOf r.frame h with
  | none => simp [State.recallOf_eq_none_iff.mp hrecall id r hlt hr rfl] at hu
  | some j =>
    obtain ⟨-, q, hq, hframe, hun⟩ := State.recallOf_some hrecall
    rw [one j id q r hq hr hframe h hun hu]

/-- A record that still has the host as a target not yet DRAINED after its frame's settling is a FREE of the host's own that
waits on another target. -/
theorem State.settleDeparting_undrained (hone : ∀ i j ri rj, s.record i = some ri → s.record j = some rj →
      ri.frame = f → rj.frame = f → ri.undrained h = true → rj.undrained h = true → i = j) {id : Nat}
    {r : RecallRecord} (hlt : id < 16) (hr : (s.settleDeparting h f).record id = some r) (hframe : r.frame = f)
    (hu : r.undrained h = true) :
    r.purpose = .free ∧ r.requester = h ∧ r.othersDrained h = false := by
  cases hrecall : s.recallOf f h with
  | none =>
    have same : (s.settleDeparting h f).record id = s.record id := by
      rcases s.settleDeparting_cases h f with same | ⟨j, q, hj, -⟩ | ⟨o, d, -, -, -, swept⟩
      · rw [same]
      · cases hrecall.symm.trans hj
      · rw [swept, State.drainSwept_record]
    simp [State.recallOf_eq_none_iff.mp hrecall id r hlt (same ▸ hr) hframe] at hu
  | some j =>
    obtain ⟨-, q, hq, hqf, hqu⟩ := State.recallOf_some hrecall
    rw [State.settleDeparting_of_recalled hrecall hq] at hr
    split at hr
    · next waits =>
      have : id = j := hone id j r q hr hq hframe hqf hu hqu
      subst this
      cases hr.symm.trans hq
      exact waits
    · rw [State.drainTarget_record] at hr
      split at hr
      · split at hr
        · cases hr
        · cases hr
          simp [RecallRecord.drained_undrained] at hu
      · next hne => exact absurd (hone id j r q hr hq hframe hqf hu hqu) hne

/-- After the run, no record has the host as a target not yet DRAINED but a FREE of its own that waits on another. -/
theorem State.settleAll_undrained (one : s.OneRecallEach) (hn : l.Nodup)
    (hall : ∀ id r, id < 16 → s.record id = some r → r.undrained h = true → r.frame ∈ l) {id : Nat} {r : RecallRecord}
    (hlt : id < 16) (hr : (s.settleAll h l).record id = some r) (hu : r.undrained h = true) :
    r.purpose = .free ∧ r.requester = h ∧ r.othersDrained h = false := by
  by_cases hf : r.frame ∈ l
  · obtain ⟨v, before, after⟩ := s.settleAll_at (h := h) hn hf
    refine State.settleDeparting_undrained (s := v) (fun i j ri rj hi hj hfi hfj hui huj => ?_) hlt
      ((after.record id r rfl).mp hr) rfl hu
    exact one i j ri rj ((before.record i ri hfi).mp hi) ((before.record j rj hfj).mp hj) (hfi.trans hfj.symm) h hui huj
  · have same := State.settleAll_sameAt (h := h) s hf
    exact absurd (hall id r hlt ((same.record id r rfl).mp hr) hu) hf

/-- The run drains the host's target of a record, and completes the record when that was the last. -/
theorem State.settleAll_drained (one : s.OneRecallEach) (hn : l.Nodup) {id : Nat} {r : RecallRecord} (hlt : id < 16)
    (hr : s.record id = some r) (hu : r.undrained h = true) (hf : r.frame ∈ l)
    (hdrains : ¬ (r.purpose = .free ∧ r.requester = h ∧ r.othersDrained h = false)) :
    ((s.settleAll h l).frame r.frame).ClearOf h ∧
    (r.othersDrained h = true → (s.settleAll h l).record id = none) ∧
    (r.othersDrained h = false → (s.settleAll h l).record id = some (r.drained h)) := by
  obtain ⟨v, before, after⟩ := s.settleAll_at (h := h) hn hf
  have recalled : v.recallOf r.frame h = some id := (before.recallOf h).trans (one.recallOf_eq hlt hr hu)
  have settled : v.settleDeparting h r.frame = v.drainTarget id r h true := by
    rw [State.settleDeparting_of_recalled recalled ((before.record id r rfl).mpr hr), if_neg hdrains]
  have allDrained : (r.drained h).allDrained = r.othersDrained h := by
    rw [Bool.eq_iff_iff, RecallRecord.allDrained_iff]
    simp only [RecallRecord.drained_undrained, RecallRecord.othersDrained, List.all_eq_true, mem_hosts, true_imp_iff]
    refine forall_congr' fun k => ?_
    by_cases hk : k = h <;> simp [hk]
  rw [settled] at after
  have record := v.drainTarget_record id r h true id
  rw [if_pos rfl, allDrained] at record
  refine ⟨?_, fun others => ?_, fun others => ?_⟩
  · rw [after.frame]
    exact v.drainTarget_clearOf id r h true
  · exact after.gone id (by rw [record, if_pos others])
  · exact (after.record id _ (r.drained_frame h)).mpr (by rw [record, if_neg (by simp [others])])

/-- The run drains the host's access that a sweep has closed, and frees the frame when that was the last (R154). -/
theorem State.settleAll_swept (hn : l.Nodup) (hf : f ∈ l) {j : HostId} {d : Departure}
    (hd : s.departures.get j = some d) (phase : d.phase = .sweeping f true) (ho : (s.frame f).owner = some j)
    (hstate : (s.frame f).state = .held) (hrecall : s.recallOf f h = none)
    (hclosing : (s.frame f).closing.get h = true) :
    ((s.settleAll h l).frame f).ClearOf h ∧
    ((∀ k, k ≠ j → k ≠ h → (s.frame f).access.get k = .none) →
      ((s.settleAll h l).frame f).state = .scrubbing ∧
      (s.settleAll h l).departures.get j = some { d with phase := .sweeping f false }) := by
  obtain ⟨v, before, after⟩ := s.settleAll_at (h := h) hn hf
  have owner : (v.frame f).owner = some j := before.frame ▸ ho
  have departing : v.departures.get j = some d := (before.sweep j d true phase).mpr hd
  have settled : v.settleDeparting h f = v.drainSwept h f j := by
    rw [State.settleDeparting_of_unrecalled ((before.recallOf h).trans hrecall),
      State.forcedFreeingOf_eq_some_iff.mpr ⟨owner, d, departing, phase⟩, Option.elim_some, before.frame, if_pos hclosing]
  rw [settled] at after
  refine ⟨?_, fun hlast => ?_⟩
  · rw [after.frame]
    exact v.drainSwept_clearOf h f j
  · have last : ((v.sweptHost h f).frame f).holders (fun k => decide (k = j)) = [] := by
      rw [State.sweptHost_holders_eq_nil_iff, before.frame]
      exact hlast
    have held : ((v.sweptHost h f).frame f).isOwned = true := by
      rw [State.sweptHost_frame, if_pos rfl, before.frame]
      simp [FrameRecord.isOwned, hstate]
    refine ⟨?_, (after.sweep j _ false rfl).mpr ?_⟩
    · rw [after.frame, State.drainSwept_frame, if_pos last, State.enterScrubbing_frame, if_pos ⟨rfl, held⟩]
      rfl
    · rw [State.drainSwept_departures, if_pos last, PerHost.get_set_same, departing]
      rfl

end

end Sys2Proof.Machine
end

section
/-! SUPPORT. The end of a departure's drain phase: the frames it settles and the state it leaves (R69, R150). -/

namespace Sys2Proof.Machine

set_option Elab.async false

variable {s : State} {h : HostId} {f : Nat}

/-! ### The frames to settle -/

theorem State.mem_framesToSettle :
    f ∈ s.framesToSettle h ↔
      (∃ id r, id < 16 ∧ s.record id = some r ∧ r.frame = f ∧ r.undrained h = true) ∨
      ∃ j d, s.departures.get j = some d ∧ d.phase = .sweeping f true := by
  unfold State.framesToSettle
  rw [List.mem_dedup, List.mem_append, List.mem_filterMap, List.mem_filterMap]
  refine or_congr ⟨?_, ?_⟩ ⟨?_, ?_⟩
  · rintro ⟨id, hid, hsome⟩
    split at hsome
    · next r hr =>
      split at hsome
      · next hu => exact ⟨id, r, List.mem_range.mp hid, hr, Option.some.inj hsome, hu⟩
      · cases hsome
    · cases hsome
  · rintro ⟨id, r, hid, hr, hf, hu⟩
    exact ⟨id, List.mem_range.mpr hid, by simp [hr, hu, hf]⟩
  · rintro ⟨j, -, hsome⟩
    split at hsome
    · next cause g hd =>
      cases hsome
      exact ⟨j, ⟨cause, .sweeping f true⟩, hd, rfl⟩
    · cases hsome
  · rintro ⟨j, ⟨cause, phase⟩, hd, hphase⟩
    cases hphase
    exact ⟨j, mem_hosts j, by rw [hd]⟩

/-- The frames to settle in the free order of the event (log entry 11). -/
def State.settleOrder (s : State) (h : HostId) : List Nat :=
  sortRanked (Config.freeRank s.fresh) (s.framesToSettle h)

theorem State.mem_settleOrder :
    f ∈ s.settleOrder h ↔
      (∃ id r, id < 16 ∧ s.record id = some r ∧ r.frame = f ∧ r.undrained h = true) ∨
      ∃ j d, s.departures.get j = some d ∧ d.phase = .sweeping f true :=
  (mem_sortRanked _ _ _).trans State.mem_framesToSettle

theorem State.settleOrder_nodup (s : State) (h : HostId) : (s.settleOrder h).Nodup :=
  (sortRanked_perm _ _).nodup_iff.mpr (List.nodup_dedup _)

theorem State.settleOrder_eq_nil (hrecords : ∀ id r, id < 16 → s.record id = some r → r.undrained h = false)
    (hsweeps : ∀ j d f, s.departures.get j = some d → d.phase ≠ .sweeping f true) : s.settleOrder h = [] := by
  refine List.eq_nil_iff_forall_not_mem.mpr fun f hf => ?_
  rcases State.mem_settleOrder.mp hf with ⟨id, r, hlt, hr, -, hu⟩ | ⟨j, d, hd, phase⟩
  · simp [hrecords id r hlt hr] at hu
  · exact hsweeps j d f hd phase

/-! ### The state after the drains -/

/-- The state after the drains of the event, with its free order used up. -/
def State.settled (s : State) (h : HostId) : State :=
  ({ s with fresh := s.fresh + 1 } : State).settleAll h (s.settleOrder h)

theorem State.endDrainPhase_eq (s : State) (h : HostId) (cause : Cause) :
    s.endDrainPhase h cause =
      { s.settled h with departures := (s.settled h).departures.set h (some ⟨cause, .sweeping 0 false⟩) } := rfl

theorem State.settled_drainOnly : ({ s with fresh := s.fresh + 1 } : State).DrainOnly (s.settled h) :=
  State.settleAll_drainOnly _ h _

theorem State.settled_fresh : (s.settled h).fresh = s.fresh + 1 := by
  rw [State.settled_drainOnly (s := s)]

theorem State.settled_units : (s.settled h).units = s.units := by
  rw [State.settled_drainOnly (s := s)]

theorem State.settled_waitList : (s.settled h).waitList = s.waitList := by
  rw [State.settled_drainOnly (s := s)]

theorem State.settled_freeList : (s.settled h).freeList = s.freeList := by
  rw [State.settled_drainOnly (s := s)]

theorem State.settled_offers : (s.settled h).offers = s.offers := by
  rw [State.settled_drainOnly (s := s)]

theorem RecallRecord.othersDrained_eq_false_iff {r : RecallRecord} :
    r.othersDrained h = false ↔ ∃ k, k ≠ h ∧ r.undrained k = true := by
  simp [RecallRecord.othersDrained]

/-- R69: of the host's targets, only that of a FREE of its own that waits on another stays. -/
theorem State.settled_undrained (one : s.OneRecallEach) {id : Nat} {r : RecallRecord} (hlt : id < 16)
    (hr : (s.settled h).record id = some r) (hu : r.undrained h = true) :
    r.purpose = .free ∧ r.requester = h ∧ r.othersDrained h = false :=
  State.settleAll_undrained (s := { s with fresh := s.fresh + 1 }) one (s.settleOrder_nodup h)
    (fun j q hj hq hqu => State.mem_settleOrder.mpr (.inl ⟨j, q, hj, hq, rfl, hqu⟩)) hlt hr hu

/-- R150: every other target of the host is drained, and a record left without another is complete. -/
theorem State.settled_drained (one : s.OneRecallEach) {id : Nat} {r : RecallRecord} (hlt : id < 16)
    (hr : s.record id = some r) (hu : r.undrained h = true)
    (hdrains : ¬ (r.purpose = .free ∧ r.requester = h ∧ r.othersDrained h = false)) :
    ((s.settled h).frame r.frame).ClearOf h ∧
    (r.othersDrained h = true → (s.settled h).record id = none) ∧
    (r.othersDrained h = false → (s.settled h).record id = some (r.drained h)) :=
  State.settleAll_drained (s := { s with fresh := s.fresh + 1 }) one (s.settleOrder_nodup h) hlt hr hu
    (State.mem_settleOrder.mpr (.inl ⟨id, r, hlt, hr, rfl, hu⟩)) hdrains

/-- R150 and R154: the host's access that a sweep closed is drained, and the last such drain frees the frame. -/
theorem State.settled_swept {j : HostId} {d : Departure} (hd : s.departures.get j = some d)
    (phase : d.phase = .sweeping f true) (ho : (s.frame f).owner = some j) (hstate : (s.frame f).state = .held)
    (hrecall : s.recallOf f h = none) (hclosing : (s.frame f).closing.get h = true) :
    ((s.settled h).frame f).ClearOf h ∧
    ((∀ k, k ≠ j → k ≠ h → (s.frame f).access.get k = .none) →
      ((s.settled h).frame f).state = .scrubbing ∧
      (s.settled h).departures.get j = some { d with phase := .sweeping f false }) :=
  State.settleAll_swept (s := { s with fresh := s.fresh + 1 }) (s.settleOrder_nodup h)
    (State.mem_settleOrder.mpr (.inr ⟨j, d, hd, phase⟩)) hd phase ho hstate hrecall hclosing

/-! ### The command -/

theorem exec_drainPhaseEnd {d : Departure} (hd : s.departures.get h = some d) :
    exec (.drainPhaseEnd h) s =
      if d.phase = .draining ∧ (s.unit h).ort = [] then .next (s.endDrainPhase h d.cause) else .next s := by
  show execDrainPhaseEnd h s = _
  rw [execDrainPhaseEnd, hd]

/-- Settles O46: the drains run over distinct frames, each drain leaves every other frame alone, so each frame's outcome is
that of its own drain. -/
theorem drainPhaseEnds : Obligations.DrainPhaseEnds := by
  refine ⟨fun s h f => ⟨fun id r => State.settleDeparting_of_recalled, fun o d hrecall ho hd phase => ?_,
    fun hrecall hn => ?_⟩, fun s h d hd => ⟨fun waits => ?_, fun draining empty => ⟨s.endDrainPhase h d.cause, ?_, ?_⟩⟩⟩
  · rw [State.settleDeparting_of_unrecalled hrecall, State.forcedFreeingOf_eq_some_iff.mpr ⟨ho, d, hd, phase⟩,
      Option.elim_some]
  · rw [State.settleDeparting_of_unrecalled hrecall, State.forcedFreeingOf_eq_none hn, Option.elim_none]
  · rw [exec_drainPhaseEnd hd, if_neg (by tauto)]
  · rw [exec_drainPhaseEnd hd, if_pos ⟨draining, empty⟩]
  · rw [State.endDrainPhase_eq]
    refine ⟨PerHost.get_set_same _ h _, State.settled_units, State.settled_waitList, State.settled_freeList,
      State.settled_offers, fun one id r hlt hr hu => ?_,
      ⟨s.settleOrder h, s.settled h, s.settleOrder_nodup h, fun f => State.mem_settleOrder, ?_, rfl⟩,
      fun one id r hlt hr hu hdrains => ?_, fun j dj f hj phase ho hstate hrecall hclosing => ?_,
      fun hrecords hsweeps => ?_⟩
    · obtain ⟨free, own, waits⟩ := State.settled_undrained one hlt hr hu
      exact ⟨free, own, RecallRecord.othersDrained_eq_false_iff.mp waits⟩
    · show s.settled h = State.settleAll h { s with fresh := (s.settled h).fresh } (s.settleOrder h)
      rw [State.settled_fresh, State.settled]
    · obtain ⟨clear, last, others⟩ := State.settled_drained one hlt hr hu hdrains
      refine ⟨clear.1, clear.2, last, fun hothers => ⟨r.drained h, others hothers, ?_, fun k hk => ?_⟩⟩
      · rw [RecallRecord.drained_get, if_pos rfl]
      · simp [RecallRecord.drained_undrained, hk]
    · obtain ⟨clear, last⟩ := State.settled_swept hj phase ho hstate hrecall hclosing
      refine ⟨clear.1, clear.2, fun hlast => ⟨(last hlast).1, ?_⟩⟩
      have other : j ≠ h := by
        rintro rfl
        cases hd.symm.trans hj
        cases draining.symm.trans phase
      exact (PerHost.get_set_ne _ _ other).trans (last hlast).2
    · have settled : s.settled h = { s with fresh := s.fresh + 1 } := by
        rw [State.settled, State.settleOrder_eq_nil hrecords hsweeps]
        rfl
      rw [settled]

end Sys2Proof.Machine
end
